-- ==== Sys2Proof/Word.lean ====
section
/-! DEFINITION. The value types of the hardware (00_scope.md R7, R9, R10): unsigned values of fixed width. -/

namespace Sys2Proof

/-- An 8-bit value: a general register, a timer, a memory cell (00_scope.md R7). -/
abbrev Byte := BitVec 8

/-- A 16-bit value: the instruction word, I, pc, a stack entry (00_scope.md R7). -/
abbrev Word := BitVec 16

/-- A 4-bit slice of the instruction word (00_scope.md R16 *Nibble*). -/
abbrev Nibble := BitVec 4

/-- The 12-bit address immediate nnn, and an address as the memory sees it (30_encoding.md R93, 10_state.md R30). -/
abbrev Addr12 := BitVec 12

/-- The number of a general register, 0 to 15 (10_state.md R20). -/
abbrev Reg := Fin 16

/-- The register number of VF, the flag register (10_state.md R21). -/
abbrev flagReg : Reg := 15

end Sys2Proof
end

