-- ==== Sys2Proof/Syntax.lean ====
section
/-! DEFINITION. The instructions (30_encoding.md R97, R111): one constructor for each of the 34 rows of the opcode table,
in the table's order. An operand named `ign` holds the bits of the word that decode and execution ignore (R96); it is kept
so that an instruction determines its word, which the error reports carry (10_state.md R47). -/

namespace Sys2Proof

/-- The 34 instructions of the opcode map (30_encoding.md R97). -/
inductive Instr where
  /-- `CLS`, 00E0 (R121). -/
  | cls (ign : Nibble)
  /-- `RET`, 00EE (R122). -/
  | ret (ign : Nibble)
  /-- `JP nnn`, 1nnn (R123). -/
  | jp (nnn : Addr12)
  /-- `CALL nnn`, 2nnn (R124). -/
  | call (nnn : Addr12)
  /-- `SE Vx, kk`, 3xkk (R125). -/
  | seImm (x : Reg) (kk : Byte)
  /-- `SNE Vx, kk`, 4xkk (R126). -/
  | sneImm (x : Reg) (kk : Byte)
  /-- `SE Vx, Vy`, 5xy0 (R127). -/
  | seReg (x y : Reg) (ign : Nibble)
  /-- `SNE Vx, Vy`, 9xy0 (R128). -/
  | sneReg (x y : Reg) (ign : Nibble)
  /-- `LD Vx, kk`, 6xkk (R140). -/
  | ldImm (x : Reg) (kk : Byte)
  /-- `ADD Vx, kk`, 7xkk (R141). -/
  | addImm (x : Reg) (kk : Byte)
  /-- `LD Vx, Vy`, 8xy0 (R142). -/
  | ldReg (x y : Reg)
  /-- `OR Vx, Vy`, 8xy1 (R143). -/
  | orReg (x y : Reg)
  /-- `AND Vx, Vy`, 8xy2 (R144). -/
  | andReg (x y : Reg)
  /-- `XOR Vx, Vy`, 8xy3 (R145). -/
  | xorReg (x y : Reg)
  /-- `ADD Vx, Vy`, 8xy4 (R146). -/
  | addReg (x y : Reg)
  /-- `SUB Vx, Vy`, 8xy5 (R147). -/
  | subReg (x y : Reg)
  /-- `SHR Vx`, 8xy6 (R148). -/
  | shr (x : Reg) (ign : Nibble)
  /-- `SUBN Vx, Vy`, 8xy7 (R149). -/
  | subnReg (x y : Reg)
  /-- `SHL Vx`, 8xyE (R150). -/
  | shl (x : Reg) (ign : Nibble)
  /-- `LD I, nnn`, Annn (R160). -/
  | ldI (nnn : Addr12)
  /-- `JP V0, nnn`, Bnnn (R161). -/
  | jpV0 (nnn : Addr12)
  /-- `RND Vx, kk`, Cxkk (R162). -/
  | rnd (x : Reg) (kk : Byte)
  /-- `DRW Vx, Vy, n`, Dxyn (R163). -/
  | drw (x y : Reg) (n : Nibble)
  /-- `SKP Vx`, Ex9E (R170). -/
  | skp (x : Reg)
  /-- `SKNP Vx`, ExA1 (R171). -/
  | sknp (x : Reg)
  /-- `LD Vx, DT`, Fx07 (R172). -/
  | ldVxDT (x : Reg)
  /-- `LD DT, Vx`, Fx15 (R173). -/
  | ldDTVx (x : Reg)
  /-- `LD ST, Vx`, Fx18 (R174). -/
  | ldSTVx (x : Reg)
  /-- `LD Vx, K`, Fx0A (R175). -/
  | ldVxK (x : Reg)
  /-- `ADD I, Vx`, Fx1E (R180). -/
  | addI (x : Reg)
  /-- `LD F, Vx`, Fx29 (R181). -/
  | ldF (x : Reg)
  /-- `LD B, Vx`, Fx33 (R182). -/
  | ldB (x : Reg)
  /-- `LD [I], Vx`, Fx55 (R183). -/
  | ldMemVx (x : Reg)
  /-- `LD Vx, [I]`, Fx65 (R184). -/
  | ldVxMem (x : Reg)
  deriving DecidableEq, Repr

/-- What the decoder makes of a word: one of the 34 instructions, or `Unknown(w)`, "a representable, testable variant
rather than a fallthrough" (30_encoding.md R94). -/
inductive Decoded where
  | instr (i : Instr)
  | unknown (w : Word)
  deriving DecidableEq, Repr

end Sys2Proof
end

