-- ==== Sys2Proof/WellFormed.lean ====
section
/-! DEFINITION. Well-formed instructions: the canonical ones of 30_encoding.md R96, "An assembler should emit zeros in
ignored bits; the canonical words are those of rule R97". Every other bound on an operand (4-bit register numbers, 8-bit
and 12-bit immediates, R93) is carried by the operand's type. The machine runs ill-formed instructions as well: the
ignored bits are ignored by decode and by execution (R96). -/

namespace Sys2Proof

/-- Whether the ignored bits of the instruction are zero (30_encoding.md R96). -/
def Instr.wellFormed : Instr → Bool
  | .cls ign => ign = 0
  | .ret ign => ign = 0
  | .jp _ => true
  | .call _ => true
  | .seImm _ _ => true
  | .sneImm _ _ => true
  | .seReg _ _ ign => ign = 0
  | .sneReg _ _ ign => ign = 0
  | .ldImm _ _ => true
  | .addImm _ _ => true
  | .ldReg _ _ => true
  | .orReg _ _ => true
  | .andReg _ _ => true
  | .xorReg _ _ => true
  | .addReg _ _ => true
  | .subReg _ _ => true
  | .shr _ ign => ign = 0
  | .subnReg _ _ => true
  | .shl _ ign => ign = 0
  | .ldI _ => true
  | .jpV0 _ => true
  | .rnd _ _ => true
  | .drw _ _ _ => true
  | .skp _ => true
  | .sknp _ => true
  | .ldVxDT _ => true
  | .ldDTVx _ => true
  | .ldSTVx _ => true
  | .ldVxK _ => true
  | .addI _ => true
  | .ldF _ => true
  | .ldB _ => true
  | .ldMemVx _ => true
  | .ldVxMem _ => true

/-- The same instruction with its ignored bits zero: the one an assembler would emit (30_encoding.md R96). -/
def Instr.canonical : Instr → Instr
  | .cls _ => .cls 0
  | .ret _ => .ret 0
  | .seReg x y _ => .seReg x y 0
  | .sneReg x y _ => .sneReg x y 0
  | .shr x _ => .shr x 0
  | .shl x _ => .shl x 0
  | .jp nnn => .jp nnn
  | .call nnn => .call nnn
  | .seImm x kk => .seImm x kk
  | .sneImm x kk => .sneImm x kk
  | .ldImm x kk => .ldImm x kk
  | .addImm x kk => .addImm x kk
  | .ldReg x y => .ldReg x y
  | .orReg x y => .orReg x y
  | .andReg x y => .andReg x y
  | .xorReg x y => .xorReg x y
  | .addReg x y => .addReg x y
  | .subReg x y => .subReg x y
  | .subnReg x y => .subnReg x y
  | .ldI nnn => .ldI nnn
  | .jpV0 nnn => .jpV0 nnn
  | .rnd x kk => .rnd x kk
  | .drw x y n => .drw x y n
  | .skp x => .skp x
  | .sknp x => .sknp x
  | .ldVxDT x => .ldVxDT x
  | .ldDTVx x => .ldDTVx x
  | .ldSTVx x => .ldSTVx x
  | .ldVxK x => .ldVxK x
  | .addI x => .addI x
  | .ldF x => .ldF x
  | .ldB x => .ldB x
  | .ldMemVx x => .ldMemVx x
  | .ldVxMem x => .ldVxMem x

end Sys2Proof
end

