-- ==== Sys2Proof/Decode.lean ====
section
/-! DEFINITION. The decoder, total on every word (30_encoding.md R94, R99), the encoder (R92, R97), and the opcode map of
R97 as a list of rows. The selector values are the spec's: 6xkk and 7xkk from its source, the others from general
knowledge (R98, 93_implementation_defined.md G1; log entry 9). -/

namespace Sys2Proof

/-- op = w[15:12], the primary selector (30_encoding.md R91). -/
def fieldOp (w : Word) : Nibble := w.extractLsb' 12 4

/-- w[11:8] as four bits (30_encoding.md R91). -/
def fieldX (w : Word) : Nibble := w.extractLsb' 8 4

/-- w[7:4] as four bits (30_encoding.md R91). -/
def fieldY (w : Word) : Nibble := w.extractLsb' 4 4

/-- n = w[3:0] (30_encoding.md R91). -/
def fieldN (w : Word) : Nibble := w.extractLsb' 0 4

/-- kk = w[7:0] (30_encoding.md R91). -/
def fieldKK (w : Word) : Byte := w.extractLsb' 0 8

/-- nnn = w[11:0] (30_encoding.md R91). -/
def fieldNNN (w : Word) : Addr12 := w.extractLsb' 0 12

/-- The register a 4-bit field names, "used directly" (30_encoding.md R93). -/
def regOf (f : Nibble) : Reg := f.toFin

/-- The 4-bit field that names a register. -/
def regField (x : Reg) : Nibble := BitVec.ofFin x

/-- Family 0x0, secondary selector w[7:0] (30_encoding.md R95, R99). -/
def decodeFamily0 (w : Word) : Decoded :=
  if fieldKK w = 0xE0 then .instr (.cls (fieldX w))
  else if fieldKK w = 0xEE then .instr (.ret (fieldX w))
  else .unknown w

/-- Family 0x8, secondary selector w[3:0] (30_encoding.md R95, R99). -/
def decodeFamily8 (w : Word) : Decoded :=
  let x := regOf (fieldX w)
  let y := regOf (fieldY w)
  if fieldN w = 0x0 then .instr (.ldReg x y)
  else if fieldN w = 0x1 then .instr (.orReg x y)
  else if fieldN w = 0x2 then .instr (.andReg x y)
  else if fieldN w = 0x3 then .instr (.xorReg x y)
  else if fieldN w = 0x4 then .instr (.addReg x y)
  else if fieldN w = 0x5 then .instr (.subReg x y)
  else if fieldN w = 0x6 then .instr (.shr x (fieldY w))
  else if fieldN w = 0x7 then .instr (.subnReg x y)
  else if fieldN w = 0xE then .instr (.shl x (fieldY w))
  else .unknown w

/-- Family 0xE, secondary selector w[7:0] (30_encoding.md R95, R99). -/
def decodeFamilyE (w : Word) : Decoded :=
  let x := regOf (fieldX w)
  if fieldKK w = 0x9E then .instr (.skp x)
  else if fieldKK w = 0xA1 then .instr (.sknp x)
  else .unknown w

/-- Family 0xF, secondary selector w[7:0] (30_encoding.md R95, R99). -/
def decodeFamilyF (w : Word) : Decoded :=
  let x := regOf (fieldX w)
  if fieldKK w = 0x07 then .instr (.ldVxDT x)
  else if fieldKK w = 0x0A then .instr (.ldVxK x)
  else if fieldKK w = 0x15 then .instr (.ldDTVx x)
  else if fieldKK w = 0x18 then .instr (.ldSTVx x)
  else if fieldKK w = 0x1E then .instr (.addI x)
  else if fieldKK w = 0x29 then .instr (.ldF x)
  else if fieldKK w = 0x33 then .instr (.ldB x)
  else if fieldKK w = 0x55 then .instr (.ldMemVx x)
  else if fieldKK w = 0x65 then .instr (.ldVxMem x)
  else .unknown w

/-- The decision list of 30_encoding.md R99. Every word decodes, to an instruction or to `unknown` (R94). -/
def decode (w : Word) : Decoded :=
  let x := regOf (fieldX w)
  let y := regOf (fieldY w)
  if fieldOp w = 0x0 then decodeFamily0 w
  else if fieldOp w = 0x1 then .instr (.jp (fieldNNN w))
  else if fieldOp w = 0x2 then .instr (.call (fieldNNN w))
  else if fieldOp w = 0x3 then .instr (.seImm x (fieldKK w))
  else if fieldOp w = 0x4 then .instr (.sneImm x (fieldKK w))
  else if fieldOp w = 0x5 then .instr (.seReg x y (fieldN w))
  else if fieldOp w = 0x6 then .instr (.ldImm x (fieldKK w))
  else if fieldOp w = 0x7 then .instr (.addImm x (fieldKK w))
  else if fieldOp w = 0x8 then decodeFamily8 w
  else if fieldOp w = 0x9 then .instr (.sneReg x y (fieldN w))
  else if fieldOp w = 0xA then .instr (.ldI (fieldNNN w))
  else if fieldOp w = 0xB then .instr (.jpV0 (fieldNNN w))
  else if fieldOp w = 0xC then .instr (.rnd x (fieldKK w))
  else if fieldOp w = 0xD then .instr (.drw x y (fieldN w))
  else if fieldOp w = 0xE then decodeFamilyE w
  else decodeFamilyF w

/-- The word of two bytes, "first byte is the high byte" (20_memory.md R61). -/
def wordOfBytes (high low : Byte) : Word := high ++ low

/-- Decode a byte stream: the first two bytes as one word, and the rest. `none` where fewer than two bytes are left,
which a fetch never meets (20_memory.md R65). -/
def decodeBytes : List Byte → Option (Decoded × List Byte)
  | high :: low :: rest => some (decode (wordOfBytes high low), rest)
  | [_] => none
  | [] => none

/-- Format NNN (30_encoding.md R92). -/
def formatNNN (op : Nibble) (nnn : Addr12) : Word := op ++ nnn

/-- Formats XKK, XS and S: op, a nibble, a byte (30_encoding.md R92). -/
def formatXKK (op : Nibble) (x : Nibble) (kk : Byte) : Word := op ++ x ++ kk

/-- Formats XY, XYS and XYN: op and three nibbles (30_encoding.md R92). -/
def formatXYN (op x y n : Nibble) : Word := op ++ x ++ y ++ n

/-- The word of an instruction (30_encoding.md R92, R97), its ignored bits as the instruction holds them. -/
def encode : Instr → Word
  | .cls ign => formatXKK 0x0 ign 0xE0
  | .ret ign => formatXKK 0x0 ign 0xEE
  | .jp nnn => formatNNN 0x1 nnn
  | .call nnn => formatNNN 0x2 nnn
  | .seImm x kk => formatXKK 0x3 (regField x) kk
  | .sneImm x kk => formatXKK 0x4 (regField x) kk
  | .seReg x y ign => formatXYN 0x5 (regField x) (regField y) ign
  | .sneReg x y ign => formatXYN 0x9 (regField x) (regField y) ign
  | .ldImm x kk => formatXKK 0x6 (regField x) kk
  | .addImm x kk => formatXKK 0x7 (regField x) kk
  | .ldReg x y => formatXYN 0x8 (regField x) (regField y) 0x0
  | .orReg x y => formatXYN 0x8 (regField x) (regField y) 0x1
  | .andReg x y => formatXYN 0x8 (regField x) (regField y) 0x2
  | .xorReg x y => formatXYN 0x8 (regField x) (regField y) 0x3
  | .addReg x y => formatXYN 0x8 (regField x) (regField y) 0x4
  | .subReg x y => formatXYN 0x8 (regField x) (regField y) 0x5
  | .shr x ign => formatXYN 0x8 (regField x) ign 0x6
  | .subnReg x y => formatXYN 0x8 (regField x) (regField y) 0x7
  | .shl x ign => formatXYN 0x8 (regField x) ign 0xE
  | .ldI nnn => formatNNN 0xA nnn
  | .jpV0 nnn => formatNNN 0xB nnn
  | .rnd x kk => formatXKK 0xC (regField x) kk
  | .drw x y n => formatXYN 0xD (regField x) (regField y) n
  | .skp x => formatXKK 0xE (regField x) 0x9E
  | .sknp x => formatXKK 0xE (regField x) 0xA1
  | .ldVxDT x => formatXKK 0xF (regField x) 0x07
  | .ldDTVx x => formatXKK 0xF (regField x) 0x15
  | .ldSTVx x => formatXKK 0xF (regField x) 0x18
  | .ldVxK x => formatXKK 0xF (regField x) 0x0A
  | .addI x => formatXKK 0xF (regField x) 0x1E
  | .ldF x => formatXKK 0xF (regField x) 0x29
  | .ldB x => formatXKK 0xF (regField x) 0x33
  | .ldMemVx x => formatXKK 0xF (regField x) 0x55
  | .ldVxMem x => formatXKK 0xF (regField x) 0x65

/-- One row of the opcode map (30_encoding.md R97): its number there, its mask and its match. -/
structure OpcodeRow where
  number : Nat
  mask : Word
  pattern : Word
  deriving DecidableEq, Repr

/-- Rows 1 to 10 of the opcode map (30_encoding.md R97): no secondary selector, or family 0x0. -/
def opcodeMapFlow : List OpcodeRow :=
  [⟨1, 0xF0FF, 0x00E0⟩, ⟨2, 0xF0FF, 0x00EE⟩, ⟨3, 0xF000, 0x1000⟩, ⟨4, 0xF000, 0x2000⟩, ⟨5, 0xF000, 0x3000⟩,
   ⟨6, 0xF000, 0x4000⟩, ⟨7, 0xF000, 0x5000⟩, ⟨8, 0xF000, 0x9000⟩, ⟨9, 0xF000, 0x6000⟩, ⟨10, 0xF000, 0x7000⟩]

/-- Rows 11 to 19 of the opcode map (30_encoding.md R97): family 0x8. -/
def opcodeMapAlu : List OpcodeRow :=
  [⟨11, 0xF00F, 0x8000⟩, ⟨12, 0xF00F, 0x8001⟩, ⟨13, 0xF00F, 0x8002⟩, ⟨14, 0xF00F, 0x8003⟩, ⟨15, 0xF00F, 0x8004⟩,
   ⟨16, 0xF00F, 0x8005⟩, ⟨17, 0xF00F, 0x8006⟩, ⟨18, 0xF00F, 0x8007⟩, ⟨19, 0xF00F, 0x800E⟩]

/-- Rows 20 to 34 of the opcode map (30_encoding.md R97): 0xA to 0xD, and families 0xE and 0xF. -/
def opcodeMapRest : List OpcodeRow :=
  [⟨20, 0xF000, 0xA000⟩, ⟨21, 0xF000, 0xB000⟩, ⟨22, 0xF000, 0xC000⟩, ⟨23, 0xF000, 0xD000⟩, ⟨24, 0xF0FF, 0xE09E⟩,
   ⟨25, 0xF0FF, 0xE0A1⟩, ⟨26, 0xF0FF, 0xF007⟩, ⟨27, 0xF0FF, 0xF015⟩, ⟨28, 0xF0FF, 0xF018⟩, ⟨29, 0xF0FF, 0xF00A⟩,
   ⟨30, 0xF0FF, 0xF01E⟩, ⟨31, 0xF0FF, 0xF029⟩, ⟨32, 0xF0FF, 0xF033⟩, ⟨33, 0xF0FF, 0xF055⟩, ⟨34, 0xF0FF, 0xF065⟩]

/-- The opcode map of 30_encoding.md R97, its 34 rows in the map's order. -/
def opcodeMap : List OpcodeRow := opcodeMapFlow ++ opcodeMapAlu ++ opcodeMapRest

/-- The row of an instruction in the opcode map (30_encoding.md R97, first column). -/
def rowNumber : Instr → Nat
  | .cls _ => 1
  | .ret _ => 2
  | .jp _ => 3
  | .call _ => 4
  | .seImm _ _ => 5
  | .sneImm _ _ => 6
  | .seReg _ _ _ => 7
  | .sneReg _ _ _ => 8
  | .ldImm _ _ => 9
  | .addImm _ _ => 10
  | .ldReg _ _ => 11
  | .orReg _ _ => 12
  | .andReg _ _ => 13
  | .xorReg _ _ => 14
  | .addReg _ _ => 15
  | .subReg _ _ => 16
  | .shr _ _ => 17
  | .subnReg _ _ => 18
  | .shl _ _ => 19
  | .ldI _ => 20
  | .jpV0 _ => 21
  | .rnd _ _ => 22
  | .drw _ _ _ => 23
  | .skp _ => 24
  | .sknp _ => 25
  | .ldVxDT _ => 26
  | .ldDTVx _ => 27
  | .ldSTVx _ => 28
  | .ldVxK _ => 29
  | .addI _ => 30
  | .ldF _ => 31
  | .ldB _ => 32
  | .ldMemVx _ => 33
  | .ldVxMem _ => 34

/-- The word of a row of spec/opcode_table.json as a fetch meets it: the `nbits` low bits of `w`, zeros above
(30_encoding.md R90: every instruction is one 16-bit word). -/
def tableWord (nbits w : Nat) : Word := BitVec.ofNat 16 (w % 2 ^ nbits)

/-- The high byte of a word, the one at the lower address (20_memory.md R61). -/
def highByte (w : Word) : Byte := w.extractLsb' 8 8

/-- The low byte of a word, the one at the higher address (20_memory.md R61). -/
def lowByte (w : Word) : Byte := w.extractLsb' 0 8

/-- The instruction the decoder reads from the bytes of a word of the opcode table, laid out high byte first; `none` for
an unknown word. -/
def decodeTableWord (nbits w : Nat) : Option Instr :=
  match decodeBytes [highByte (tableWord nbits w), lowByte (tableWord nbits w)] with
  | some (.instr i, _) => some i
  | some (.unknown _, _) => none
  | none => none

end Sys2Proof
end

