-- ==== Sys2Proof/Machine/Flags.lean ====
section
/-! DEFINITION. The flag computations (10_state.md R21): every flag of this hardware is written to VF as 0x00 or 0x01. -/

namespace Sys2Proof.Machine

/-- The byte VF receives for a flag: "exactly 0x00 or 0x01" (10_state.md R21). -/
def flagByte (b : Bool) : Byte := if b then 0x01 else 0x00

/-- Carry of an 8-bit addition, decided on the untruncated sum (41_load_and_alu.md R146). -/
def carryOut (a b : Byte) : Bool := decide (a.toNat + b.toNat > 255)

/-- Whether `a` exceeds `b`, strictly: the flag of `SUB` and, operands exchanged, of `SUBN` (41_load_and_alu.md R147, R149). -/
def exceeds (a b : Byte) : Bool := decide (a.toNat > b.toNat)

/-- Bit 0, the flag of `SHR` (41_load_and_alu.md R148). -/
def bitZero (a : Byte) : Bool := a.getLsbD 0

/-- Bit 7, the flag of `SHL` (41_load_and_alu.md R150). -/
def bitSeven (a : Byte) : Bool := a.getLsbD 7

/-- Whether a timer step that starts with this sound timer emits the tone event (60_exceptions.md R204). -/
def toneDue (st : Byte) : Bool := decide (st = 1)

end Sys2Proof.Machine
end

