-- ==== Sys2Proof/Config.lean ====
section
/-! DEFINITION. What an implementation fixes (00_scope.md R7, R8) and the one free value of the hardware, the random
byte (10_state.md R46). The default values of the parameters stand in Machine/Defaults.lean. -/

namespace Sys2Proof

/-- Cells of memory (00_scope.md R7). -/
abbrev Config.memSize : Nat := 4096

/-- The entry point and the place of the ROM image (00_scope.md R7, 20_memory.md R68). -/
abbrev Config.entryPoint : Nat := 0x200

/-- The largest ROM image, 4096 - 0x200 bytes (00_scope.md R7, 70_reset_and_hazards.md R224). -/
abbrev Config.maxRom : Nat := 3584

/-- Bytes of the font table: 16 glyphs of 5 bytes (00_scope.md R7). -/
abbrev Config.fontSize : Nat := 80

/-- TIMER_MODE (00_scope.md R8, 70_reset_and_hazards.md R226): whether the timer step is the end of every cycle or an
operation of its own that the driver invokes. -/
inductive TimerMode where
  | perCycle
  | external
  deriving DecidableEq, Repr

/-- The open parameters of the spec (00_scope.md R8). The type of `fontBase` is the spec's constraint
FONT_BASE + 80 <= 0x200. A machine keeps its parameters for ever (log entries 1, 2, 3). -/
structure Params where
  /-- FONT_BASE: the address of the first byte of the font table. -/
  fontBase : Fin 433
  /-- FONT_TABLE: the bytes of the font table. -/
  fontTable : Vector Byte 80
  /-- TIMER_MODE. -/
  timerMode : TimerMode
  deriving DecidableEq, Repr

/-- FREE VALUE (log entry 4). The random bytes of the environment: the byte of the cycle whose number is the argument,
where the environment has not queued one in the state. It has no body, so nothing can be proved of its values
(10_state.md R46: "every value 0x00 to 0xFF is possible at every cycle"). -/
opaque Config.freeRandom : Nat → Byte

end Sys2Proof
end

