-- ==== Sys2Proof/Machine/Defaults.lean ====
section
/-! DEFINITION. The spec's suggested defaults of its open parameters (00_scope.md R8, 10_state.md R36), which the reset
state of the model takes. The font's place and bytes are marked in the spec as general knowledge: PRESUMED, log entries 1
and 2. The timer mode is the spec's own default, log entry 3. -/

namespace Sys2Proof.Machine

/-- The default of FONT_BASE, 0x050 (00_scope.md R8; PRESUMED, log entry 1). -/
def defaultFontBase : Fin 433 := 0x050

/-- The default glyphs 0 to 3 (10_state.md R36; PRESUMED, log entry 2). -/
def fontGlyphs0to3 : Vector Byte 20 :=
  #v[0xF0, 0x90, 0x90, 0x90, 0xF0, 0x20, 0x60, 0x20, 0x20, 0x70,
     0xF0, 0x10, 0xF0, 0x80, 0xF0, 0xF0, 0x10, 0xF0, 0x10, 0xF0]

/-- The default glyphs 4 to 7 (10_state.md R36; PRESUMED, log entry 2). -/
def fontGlyphs4to7 : Vector Byte 20 :=
  #v[0x90, 0x90, 0xF0, 0x10, 0x10, 0xF0, 0x80, 0xF0, 0x10, 0xF0,
     0xF0, 0x80, 0xF0, 0x90, 0xF0, 0xF0, 0x10, 0x20, 0x40, 0x40]

/-- The default glyphs 8 to B (10_state.md R36; PRESUMED, log entry 2). -/
def fontGlyphs8toB : Vector Byte 20 :=
  #v[0xF0, 0x90, 0xF0, 0x90, 0xF0, 0xF0, 0x90, 0xF0, 0x10, 0xF0,
     0xF0, 0x90, 0xF0, 0x90, 0x90, 0xE0, 0x90, 0xE0, 0x90, 0xE0]

/-- The default glyphs C to F (10_state.md R36; PRESUMED, log entry 2). -/
def fontGlyphsCtoF : Vector Byte 20 :=
  #v[0xF0, 0x80, 0x80, 0x80, 0xF0, 0xE0, 0x90, 0x90, 0x90, 0xE0,
     0xF0, 0x80, 0xF0, 0x80, 0xF0, 0xF0, 0x80, 0xF0, 0x80, 0x80]

/-- The default of FONT_TABLE (10_state.md R36; PRESUMED, log entry 2). -/
def defaultFontTable : Vector Byte 80 :=
  fontGlyphs0to3 ++ fontGlyphs4to7 ++ fontGlyphs8toB ++ fontGlyphsCtoF

/-- The default of TIMER_MODE, per_cycle (00_scope.md R8; log entry 3). -/
def defaultTimerMode : TimerMode := .perCycle

/-- The parameters of the reset state. -/
def defaultParams : Params :=
  { fontBase := defaultFontBase, fontTable := defaultFontTable, timerMode := defaultTimerMode }

end Sys2Proof.Machine
end

