-- ==== Sys2Proof/Machine/State.lean ====
section
/-! DEFINITION. The state of the machine: all that 10_state.md gives it, its two outputs, the parameters, and the model's
own fields for the environment's inputs (INVENTORY.md, State). -/

namespace Sys2Proof.Machine

/-- The report output of a cycle (10_state.md R47): the address pc0 and the word w of the instruction that reported. -/
inductive Report where
  | none
  | decodeError (pc0 w : Word)
  | stackOverflow (pc0 w : Word)
  | stackUnderflow (pc0 w : Word)
  deriving DecidableEq, Repr

/-- What the external driver may do between two cycles (10_state.md R48, R40, R44; 70_reset_and_hazards.md R224). -/
inductive DriverMove where
  /-- Commit a keypad value (10_state.md R44). -/
  | writeKeys (keys : Vector Bool 16)
  /-- Write one byte of memory (10_state.md R48, 20_memory.md R75). -/
  | writeMemory (a : Addr12) (b : Byte)
  /-- Load a ROM image at 0x200 (70_reset_and_hazards.md R224). -/
  | loadRom (image : List Byte)
  /-- Invoke `TimerTick`, an operation of the external timer mode only (10_state.md R40). -/
  | timerTick
  /-- Invoke `Reset` (10_state.md R41). -/
  | reset
  deriving DecidableEq, Repr

/-- Memory: the cells that differ from what an unlisted address reads as, addresses strictly rising (log entry 5). -/
abbrev Memory := List Host.Cell

/-- The state. The first group of fields is the spec's Machine State (10_state.md R34), the second its two outputs, the
third its parameters, the last the model's own fields for the environment. -/
structure State where
  /-- V0 to VF (10_state.md R20). -/
  v : Vector Byte 16
  /-- The index register I (10_state.md R23). -/
  i : Word
  /-- The program counter (10_state.md R24). -/
  pc : Word
  /-- The stack pointer, 0 to 16 (10_state.md R27). -/
  sp : Fin 17
  /-- The call stack (10_state.md R26). -/
  stack : Vector Word 16
  /-- The delay timer DT (10_state.md R28). -/
  dt : Byte
  /-- The sound timer ST (10_state.md R28). -/
  st : Byte
  /-- Memory (10_state.md R30). -/
  mem : Memory
  /-- The framebuffer; true is fully-set (10_state.md R31). -/
  fb : Vector Bool 2048
  /-- The keypad value the next cycle sees; true is pressed (10_state.md R32, R44). -/
  keys : Vector Bool 16
  /-- The report of the last cycle (10_state.md R47; held here by log entry 7). -/
  report : Report
  /-- The tone output of the last operation: of the last timer step, and false after a cycle of the external mode, which has
  none (10_state.md R45, 70_reset_and_hazards.md R226; held here by log entry 7). -/
  tone : Bool
  /-- The tone output of every timer step since the last cycle began, the earliest first (10_state.md R45; held here by log
  entry 7). -/
  toneLog : List Bool
  /-- FONT_BASE, FONT_TABLE and TIMER_MODE (00_scope.md R8; held here by log entries 1, 2, 3). -/
  params : Params
  /-- Random bytes the environment has queued for the coming cycles, the next cycle's first (log entry 4). -/
  rndIn : List Byte
  /-- The number of the cycle, which the free random byte depends on (log entry 4). -/
  rndCount : Nat
  /-- The driver's moves after this cycle, after the next one, and so on (log entry 6). -/
  driver : List (List DriverMove)
  deriving DecidableEq, Repr

/-- Reasons to stop with a fault: none. "There is no fault state, no stuck state and no refusal in the hardware as
specified" (00_scope.md R17). -/
inductive Fault where
  deriving DecidableEq, Repr

/-- Reasons to refuse an instruction. -/
inductive Refusal where
  /-- Raised by a refused arm of `exec` for an instruction without a meaning, and by no arm of this model. Safe: it only
  stops the machine. -/
  | notModelled (mnemonic : String)
  deriving DecidableEq, Repr

/-- The state that `Reset` leaves, for given parameters (10_state.md R37, R41, 70_reset_and_hazards.md R220). -/
def State.resetWith (p : Params) : State :=
  { v := Vector.replicate 16 0
    i := 0
    pc := 0x0200
    sp := 0
    stack := Vector.replicate 16 0
    dt := 0
    st := 0
    mem := []
    fb := Vector.replicate 2048 false
    keys := Vector.replicate 16 false
    report := .none
    tone := false
    toneLog := []
    params := p
    rndIn := []
    rndCount := 0
    driver := [] }

/-- The machine right after reset (10_state.md R37), with the spec's default parameters (log entries 1, 2, 3) and no input
queued (log entries 4, 6). -/
def State.reset : State := State.resetWith defaultParams

end Sys2Proof.Machine
end

