-- ==== Sys2Proof/Machine/Ops.lean ====
section
/-! DEFINITION. The shared operations: registers, memory, the program counter, the stack, the framebuffer, the error
report (the one "exception" this hardware has), the fetch, the timer step, and the driver's moves. -/

namespace Sys2Proof.Machine

/-! ### Memory (00_scope.md R12, 10_state.md R30) -/

/-- What an address that memory does not list reads as: the reset contents, font bytes at FONT_BASE and zero elsewhere
(10_state.md R37). -/
def Memory.unlisted (p : Params) (a : Nat) : Byte :=
  if h : p.fontBase.val ≤ a ∧ a < p.fontBase.val + 80 then p.fontTable[a - p.fontBase.val] else 0

/-- The cell at an address below 4096. -/
def Memory.read (p : Params) (m : Memory) (a : Nat) : Byte :=
  match m.find? (fun c => c.1 == a) with
  | some c => c.2
  | none => Memory.unlisted p a

/-- Put a cell into a list of cells before the first one whose address is not lower. -/
def Memory.insert (c : Host.Cell) : Memory → Memory
  | [] => [c]
  | d :: rest => if d.1 < c.1 then d :: Memory.insert c rest else c :: d :: rest

/-- Write the cell at an address below 4096, keeping the canonical form. -/
def Memory.write (p : Params) (m : Memory) (a : Nat) (b : Byte) : Memory :=
  let others := m.filter (fun c => c.1 != a)
  if b = Memory.unlisted p a then others else Memory.insert (a, b) others

/-- The canonical form of memory (log entry 5): addresses strictly rising and below 4096, and no cell equal to what its
address reads as when it is not listed. -/
abbrev Memory.wf (p : Params) (m : Memory) : Prop :=
  m.Pairwise (fun c d => c.1 < d.1) ∧ ∀ c ∈ m, c.1 < 4096 ∧ c.2 ≠ Memory.unlisted p c.1

/-- Store bytes at ascending addresses, each reduced mod 4096 by itself (20_memory.md R62, R65). -/
def Memory.writeBytes (p : Params) (m : Memory) (a : Nat) : List Byte → Memory
  | [] => m
  | b :: rest => Memory.writeBytes p (Memory.write p m (a % 4096) b) (a + 1) rest

/-- `MemRead(addr, 1)` (00_scope.md R12). -/
def State.memRead (s : State) (addr : Nat) : Byte := Memory.read s.params s.mem (addr % 4096)

/-- `MemWrite(addr, 1, b)` (00_scope.md R12). -/
def State.memWrite (s : State) (addr : Nat) (b : Byte) : State :=
  { s with mem := Memory.write s.params s.mem (addr % 4096) b }

/-- The bytes at `addr`, `addr + 1`, …, `count` of them (20_memory.md R62). -/
def State.memReadBytes (s : State) (addr count : Nat) : List Byte :=
  (List.range count).map (fun k => s.memRead (addr + k))

/-- `MemWrite` of several bytes at `addr`, `addr + 1`, … (20_memory.md R62). -/
def State.memWriteBytes (s : State) (addr : Nat) (bytes : List Byte) : State :=
  { s with mem := Memory.writeBytes s.params s.mem addr bytes }

/-! ### Registers (10_state.md R20, R23, R28) -/

/-- `V[x]`: no register is hardwired (10_state.md R20). -/
def State.reg (s : State) (x : Reg) : Byte := s.v[x.val]

/-- `V[x] <- b`. -/
def State.setReg (s : State) (x : Reg) (b : Byte) : State := { s with v := s.v.set x.val b }

/-- Result to Vx first, flag to VF last (10_state.md R29 (b)). -/
def State.setRegAndFlag (s : State) (x : Reg) (result : Byte) (flag : Bool) : State :=
  (s.setReg x result).setReg flagReg (flagByte flag)

/-- `V[k] <- bytes[k]` for every k below the number of bytes (44_index_memory.md R184). -/
def State.loadRegs (s : State) (bytes : List Byte) : State :=
  { s with v := Vector.ofFn (fun k : Fin 16 => (bytes[k.val]?).getD (s.v[k.val])) }

/-- `I <- a`. -/
def State.setI (s : State) (a : Word) : State := { s with i := a }

/-- `DT <- b`. -/
def State.setDT (s : State) (b : Byte) : State := { s with dt := b }

/-- `ST <- b`. -/
def State.setST (s : State) (b : Byte) : State := { s with st := b }

/-! ### The program counter (00_scope.md R14, 10_state.md R25) -/

/-- `next = (pc0 + 2) mod 65536`. -/
def nextPc (pc0 : Word) : Word := pc0 + 2

/-- `skip = (pc0 + 4) mod 65536`. -/
def skipPc (pc0 : Word) : Word := pc0 + 4

/-- `pc <- next`. -/
def State.advance (s : State) : State := { s with pc := nextPc s.pc }

/-- `pc <- skip` where the condition holds, else `pc <- next`. -/
def State.advanceSkipping (s : State) (c : Bool) : State := { s with pc := if c then skipPc s.pc else nextPc s.pc }

/-- `pc <- target`. -/
def State.jump (s : State) (target : Word) : State := { s with pc := target }

/-! ### The call stack (10_state.md R26, R27) -/

/-- Store a return address at `stack[sp]`, then increment sp, for sp below 16. -/
def State.push (s : State) (a : Word) (h : s.sp.val < 16) : State :=
  { s with stack := s.stack.set s.sp.val a, sp := ⟨s.sp.val + 1, by omega⟩ }

/-- Decrement sp, for sp above 0; the entry is not cleared. -/
def State.pop (s : State) : State := { s with sp := ⟨s.sp.val - 1, by omega⟩ }

/-- `stack[sp - 1]`, the address a return goes to, for sp above 0. -/
def State.stackTop (s : State) (h : 0 < s.sp.val) : Word := s.stack[s.sp.val - 1]'(by omega)

/-! ### Error reports (60_exceptions.md R190) -/

/-- TAKING AN ERROR REPORT, the same for all three kinds: set the report output to the kind with pc0 and the word, and
complete as a no-op advance. Nothing is saved, no mode changes, no handler runs, and there is no return from it
(60_exceptions.md R190, R198, R199). -/
def State.reportAndAdvance (s : State) (kind : Word → Word → Report) (w : Word) : State :=
  { s with report := kind s.pc w, pc := nextPc s.pc }

/-! ### The framebuffer (10_state.md R31) and the sprite loops (42_index_jump_random_draw.md R163, R164) -/

/-- The framebuffer and whether a collision has been recorded, while a sprite is drawn. -/
structure Canvas where
  fb : Vector Bool 2048
  hit : Bool
  deriving DecidableEq, Repr

/-- The cell of column `cx` and row `cy` (10_state.md R31). -/
def State.pixel (s : State) (cx : Fin 64) (cy : Fin 32) : Bool := s.fb[cy.val * 64 + cx.val]

/-- One set sprite bit at column `cx`, row `cy`: clipped off screen (R164), else recorded as a collision if the cell is
set, and flipped. -/
def Canvas.plot (cv : Canvas) (cx cy : Nat) : Canvas :=
  if h : cx < 64 ∧ cy < 32 then
    { fb := cv.fb.set (cy * 64 + cx) (!cv.fb[cy * 64 + cx]), hit := cv.hit || cv.fb[cy * 64 + cx] }
  else cv

/-- Bit `7 - c` of a sprite byte: column `c` of the row, the most significant bit leftmost (R163). -/
def spriteBit (b : Byte) (c : Nat) : Bool := b.getLsbD (7 - c)

/-- One sprite row: columns 0 to 7, left to right (R163). -/
def Canvas.plotRow (cv : Canvas) (x0 cy : Nat) (b : Byte) : Canvas :=
  (List.range 8).foldl (fun cv c => if spriteBit b c then cv.plot (x0 + c) cy else cv) cv

/-- The sprite's rows, top to bottom (R163). -/
def Canvas.plotRows (cv : Canvas) (x0 cy : Nat) : List Byte → Canvas
  | [] => cv
  | b :: rest => (cv.plotRow x0 cy b).plotRows x0 (cy + 1) rest

/-- Draw sprite rows with the top left corner at column `x0` and row `y0`, and set VF to the collision flag (R163). -/
def State.drawSprite (s : State) (x0 y0 : Nat) (rows : List Byte) : State :=
  let cv := Canvas.plotRows { fb := s.fb, hit := false } x0 y0 rows
  { s with fb := cv.fb, v := s.v.set flagReg.val (flagByte cv.hit) }

/-- All cells to 0 (40_flow_and_skips.md R121). -/
def State.clearDisplay (s : State) : State := { s with fb := Vector.replicate 2048 false }

/-! ### Inputs of the cycle (10_state.md R44, R46) -/

/-- The random byte of this cycle: the environment's queued byte, else the free value of the cycle's number
(10_state.md R46; log entry 4). -/
def State.rnd (s : State) : Byte :=
  match s.rndIn with
  | b :: _ => b
  | [] => Config.freeRandom s.rndCount

/-- Every cycle samples one random byte, whether or not its instruction uses it (10_state.md R46). -/
def State.nextRandom (s : State) : State := { s with rndIn := s.rndIn.tail, rndCount := s.rndCount + 1 }

/-- The least pressed key, if any (43_keypad_and_timers.md R175). -/
def State.firstKey (s : State) : Option (Fin 16) := (List.finRange 16).find? (fun k => s.keys[k.val])

/-! ### The cycle's phases (70_reset_and_hazards.md R226) -/

/-- The fetch: `MemRead(pc0, 2)`, big-endian, each byte address reduced mod 4096 (20_memory.md R61, R65). -/
def State.fetchWord (s : State) : Word := wordOfBytes (s.memRead s.pc.toNat) (s.memRead (s.pc.toNat + 1))

/-- The start of a cycle: the outputs are set afresh, `report <- None`, `tone <- false` and no timer step yet (10_state.md R47,
70_reset_and_hazards.md R226). -/
def State.beginCycle (s : State) : State := { s with report := .none, tone := false, toneLog := [] }

/-- One timer down by one, never below 0 (70_reset_and_hazards.md R228). -/
def tickDown (t : Byte) : Byte := if t = 0 then 0 else t - 1

/-- `TimerTick` (70_reset_and_hazards.md R228): both timers, and the tone output, true when ST was exactly 1 and false
otherwise (10_state.md R45), which also goes to the log of the timer steps' outputs (log entry 7). -/
def State.tickTimers (s : State) : State :=
  { s with dt := tickDown s.dt, st := tickDown s.st, tone := toneDue s.st, toneLog := s.toneLog ++ [toneDue s.st] }

/-- The end of a cycle: the timer step if TIMER_MODE = per_cycle (70_reset_and_hazards.md R226), and the random byte is
used up. -/
def State.endCycle (s : State) : State :=
  match s.params.timerMode with
  | .perCycle => s.tickTimers.nextRandom
  | .external => s.nextRandom

/-! ### The driver's moves between cycles (10_state.md R48) -/

/-- `Reset` (10_state.md R41): every piece of core state to its reset value, whatever it was. The environment's own queues
(log entry 6) and the outputs that timer steps have already given (log entry 7) are not the core's state and stay. -/
def State.resetCore (s : State) : State :=
  { State.resetWith s.params with
    toneLog := s.toneLog, rndIn := s.rndIn, rndCount := s.rndCount, driver := s.driver }

/-- Load a ROM image at 0x200; one longer than 3584 bytes is rejected whole (70_reset_and_hazards.md R224; log entry 8). -/
def State.loadRom (s : State) (image : List Byte) : State :=
  if image.length ≤ Config.maxRom then s.memWriteBytes Config.entryPoint image else s

/-- The driver's `TimerTick`, which exists in the external timer mode only (10_state.md R40). -/
def State.driverTick (s : State) : State :=
  match s.params.timerMode with
  | .perCycle => s
  | .external => s.tickTimers

/-- One move of the driver. -/
def applyMove (s : State) : DriverMove → State
  | .writeKeys keys => { s with keys := keys }
  | .writeMemory a b => s.memWrite a.toNat b
  | .loadRom image => s.loadRom image
  | .timerTick => s.driverTick
  | .reset => s.resetCore

/-- The driver's moves of one gap between two cycles, in order. -/
def applyMoves (s : State) : List DriverMove → State
  | [] => s
  | m :: rest => applyMoves (applyMove s m) rest

/-- The gap after a cycle: the driver makes the moves its script lists for it; an empty script is a driver that does
nothing (log entry 6). -/
def State.driverTurn (s : State) : State :=
  match s.driver with
  | [] => s
  | moves :: rest => applyMoves { s with driver := rest } moves

/-- What follows the instruction in a step: the end of the cycle, then the driver's gap. -/
def State.finishCycle (s : State) : State := s.endCycle.driverTurn

/-- Apply a function to the state of a next outcome. -/
def mapNext (f : State → State) : Host.Outcome State Fault Refusal → Host.Outcome State Fault Refusal
  | .next s => .next (f s)
  | .fault r => .fault r
  | .refused r => .refused r

end Sys2Proof.Machine
end

