-- ==== Sys2Proof/Machine/Operands.lean ====
section
/-! DEFINITION. The operand forms: what an instruction reads and how it is masked or widened (00_scope.md R15,
30_encoding.md R93, 60_exceptions.md R194). -/

namespace Sys2Proof.Machine

/-- `zext_16(nnn)` (30_encoding.md R93): a byte address as it stands. -/
def addrOf (nnn : Addr12) : Word := nnn.setWidth 16

/-- `zext_16(b)` (00_scope.md R10). -/
def widen (b : Byte) : Word := b.setWidth 16

/-- The register's low four bits, as a key index (43_keypad_and_timers.md R170). -/
def lowNibble (b : Byte) : Fin 16 := (b.extractLsb' 0 4).toFin

/-- The level of the key a register value names, "masked to valid range" (43_keypad_and_timers.md R170). -/
def State.keyDown (s : State) (b : Byte) : Bool := s.keys[(lowNibble b).val]

/-- FONT_BASE + 5 * d for the digit in the low four bits (44_index_memory.md R181). -/
def fontAddress (p : Params) (b : Byte) : Word := BitVec.ofNat 16 (p.fontBase.val + 5 * (lowNibble b).val)

/-- The start column of a sprite, `Vx mod 64` (42_index_jump_random_draw.md R163). -/
def startColumn (b : Byte) : Nat := b.toNat % 64

/-- The start row of a sprite, `Vy mod 32` (42_index_jump_random_draw.md R163). -/
def startRow (b : Byte) : Nat := b.toNat % 32

/-- The byte address I stands for before the reduction mod 4096; the k-th byte of a run is at `indexAddress + k`
(44_index_memory.md R185). -/
def State.indexAddress (s : State) : Nat := s.i.toNat

/-- The rows of a sprite of height n: the bytes from I on (42_index_jump_random_draw.md R163). -/
def State.spriteRows (s : State) (n : Nibble) : List Byte := s.memReadBytes s.indexAddress n.toNat

/-- The three decimal digits of a byte, hundreds first (44_index_memory.md R182). -/
def bcdDigits (a : Byte) : List Byte :=
  [BitVec.ofNat 8 (a.toNat / 100), BitVec.ofNat 8 (a.toNat / 10 % 10), BitVec.ofNat 8 (a.toNat % 10)]

/-- V0 to Vx inclusive (44_index_memory.md R183). -/
def State.regsUpTo (s : State) (x : Reg) : List Byte := s.v.toList.take (x.val + 1)

/-- The x + 1 bytes of memory from I on (44_index_memory.md R184). -/
def State.bytesUpTo (s : State) (x : Reg) : List Byte := s.memReadBytes s.indexAddress (x.val + 1)

end Sys2Proof.Machine
end

