-- ==== Sys2Proof/Machine/Flow.lean ====
section
/-! DEFINITION. Clear display, return, jump, call and the compare-skips (40_flow_and_skips.md), the jump with offset
(42_index_jump_random_draw.md R161), and the unknown word (60_exceptions.md R191). -/

namespace Sys2Proof.Machine

/-- The outcome of a meaning or of a step. -/
abbrev Result := Host.Outcome State Fault Refusal

/-- `CLS` (R121). -/
def execCls (_ign : Nibble) (s : State) : Result := .next s.clearDisplay.advance

/-- `RET` (R122); at sp = 0 the StackUnderflow report (60_exceptions.md R193), which carries the word with its ignored
bits. -/
def execRet (ign : Nibble) (s : State) : Result :=
  if h : 0 < s.sp.val then .next (s.pop.jump (s.stackTop h))
  else .next (s.reportAndAdvance .stackUnderflow (encode (.ret ign)))

/-- `JP nnn` (R123). -/
def execJp (nnn : Addr12) (s : State) : Result := .next (s.jump (addrOf nnn))

/-- `CALL nnn` (R124); at sp = 16 the StackOverflow report (60_exceptions.md R192). -/
def execCall (nnn : Addr12) (s : State) : Result :=
  if h : s.sp.val < 16 then .next ((s.push (nextPc s.pc) h).jump (addrOf nnn))
  else .next (s.reportAndAdvance .stackOverflow (encode (.call nnn)))

/-- `SE Vx, kk` (R125). -/
def execSeImm (x : Reg) (kk : Byte) (s : State) : Result := .next (s.advanceSkipping (s.reg x == kk))

/-- `SNE Vx, kk` (R126). -/
def execSneImm (x : Reg) (kk : Byte) (s : State) : Result := .next (s.advanceSkipping (s.reg x != kk))

/-- `SE Vx, Vy` (R127). -/
def execSeReg (x y : Reg) (_ign : Nibble) (s : State) : Result := .next (s.advanceSkipping (s.reg x == s.reg y))

/-- `SNE Vx, Vy` (R128). -/
def execSneReg (x y : Reg) (_ign : Nibble) (s : State) : Result := .next (s.advanceSkipping (s.reg x != s.reg y))

/-- `JP V0, nnn` (42_index_jump_random_draw.md R161). -/
def execJpV0 (nnn : Addr12) (s : State) : Result := .next (s.jump (addrOf nnn + widen (s.reg 0)))

/-- An unknown word: the DecodeError report (60_exceptions.md R191). -/
def execUnknown (w : Word) (s : State) : Result := .next (s.reportAndAdvance .decodeError w)

end Sys2Proof.Machine
end

