-- ==== Sys2Proof/Machine/Alu.lean ====
section
/-! DEFINITION. Load immediate, add immediate and the register-register operations (41_load_and_alu.md). Operands are read
before any write; the flag is written last (10_state.md R29). -/

namespace Sys2Proof.Machine

/-- `LD Vx, kk` (R140). -/
def execLdImm (x : Reg) (kk : Byte) (s : State) : Result := .next (s.setReg x kk).advance

/-- `ADD Vx, kk` (R141): wraps, sets no flag. -/
def execAddImm (x : Reg) (kk : Byte) (s : State) : Result := .next (s.setReg x (s.reg x + kk)).advance

/-- `LD Vx, Vy` (R142). -/
def execLdReg (x y : Reg) (s : State) : Result := .next (s.setReg x (s.reg y)).advance

/-- `OR Vx, Vy` (R143). -/
def execOrReg (x y : Reg) (s : State) : Result := .next (s.setReg x (s.reg x ||| s.reg y)).advance

/-- `AND Vx, Vy` (R144). -/
def execAndReg (x y : Reg) (s : State) : Result := .next (s.setReg x (s.reg x &&& s.reg y)).advance

/-- `XOR Vx, Vy` (R145). -/
def execXorReg (x y : Reg) (s : State) : Result := .next (s.setReg x (s.reg x ^^^ s.reg y)).advance

/-- `ADD Vx, Vy` (R146). -/
def execAddReg (x y : Reg) (s : State) : Result :=
  .next (s.setRegAndFlag x (s.reg x + s.reg y) (carryOut (s.reg x) (s.reg y))).advance

/-- `SUB Vx, Vy` (R147). -/
def execSubReg (x y : Reg) (s : State) : Result :=
  .next (s.setRegAndFlag x (s.reg x - s.reg y) (exceeds (s.reg x) (s.reg y))).advance

/-- `SHR Vx` (R148): logical, by one; Vy is neither read nor written. -/
def execShr (x : Reg) (_ign : Nibble) (s : State) : Result :=
  .next (s.setRegAndFlag x (s.reg x >>> 1) (bitZero (s.reg x))).advance

/-- `SUBN Vx, Vy` (R149). -/
def execSubnReg (x y : Reg) (s : State) : Result :=
  .next (s.setRegAndFlag x (s.reg y - s.reg x) (exceeds (s.reg y) (s.reg x))).advance

/-- `SHL Vx` (R150): by one; Vy is neither read nor written. -/
def execShl (x : Reg) (_ign : Nibble) (s : State) : Result :=
  .next (s.setRegAndFlag x (s.reg x <<< 1) (bitSeven (s.reg x))).advance

/-- `RND Vx, kk` (42_index_jump_random_draw.md R162). -/
def execRnd (x : Reg) (kk : Byte) (s : State) : Result := .next (s.setReg x (s.rnd &&& kk)).advance

end Sys2Proof.Machine
end

