-- ==== Sys2Proof/Machine/Devices.lean ====
section
/-! DEFINITION. Draw (42_index_jump_random_draw.md R163, R164), the key instructions and the timer moves
(43_keypad_and_timers.md). -/

namespace Sys2Proof.Machine

/-- `DRW Vx, Vy, n` (R163): the coordinates and I are read first, so x = 15 or y = 15 uses the old VF. -/
def execDrw (x y : Reg) (n : Nibble) (s : State) : Result :=
  .next (s.drawSprite (startColumn (s.reg x)) (startRow (s.reg y)) (s.spriteRows n)).advance

/-- `SKP Vx` (R170). -/
def execSkp (x : Reg) (s : State) : Result := .next (s.advanceSkipping (s.keyDown (s.reg x)))

/-- `SKNP Vx` (R171). -/
def execSknp (x : Reg) (s : State) : Result := .next (s.advanceSkipping (!s.keyDown (s.reg x)))

/-- `LD Vx, DT` (R172). -/
def execLdVxDT (x : Reg) (s : State) : Result := .next (s.setReg x s.dt).advance

/-- `LD DT, Vx` (R173). -/
def execLdDTVx (x : Reg) (s : State) : Result := .next (s.setDT (s.reg x)).advance

/-- `LD ST, Vx` (R174). -/
def execLdSTVx (x : Reg) (s : State) : Result := .next (s.setST (s.reg x)).advance

/-- `LD Vx, K` (R175): the least pressed key, or, with no key pressed, pc stands still and nothing changes. -/
def execLdVxK (x : Reg) (s : State) : Result :=
  match s.firstKey with
  | some k => .next (s.setReg x (BitVec.ofNat 8 k.val)).advance
  | none => .next (s.jump s.pc)

end Sys2Proof.Machine
end

