-- ==== Sys2Proof/Machine/IndexMemory.lean ====
section
/-! DEFINITION. Load index (42_index_jump_random_draw.md R160), add to index, font address, BCD store, register dump and
register load (44_index_memory.md). A load, a store or a draw leaves I as it is (R185). -/

namespace Sys2Proof.Machine

/-- `LD I, nnn` (R160), the supplied instruction. -/
def execLdI (nnn : Addr12) (s : State) : Result := .next (s.setI (addrOf nnn)).advance

/-- `ADD I, Vx` (R180): mod 65536, no flag. -/
def execAddI (x : Reg) (s : State) : Result := .next (s.setI (s.i + widen (s.reg x))).advance

/-- `LD F, Vx` (R181). -/
def execLdF (x : Reg) (s : State) : Result := .next (s.setI (fontAddress s.params (s.reg x))).advance

/-- `LD B, Vx` (R182). -/
def execLdB (x : Reg) (s : State) : Result := .next (s.memWriteBytes s.indexAddress (bcdDigits (s.reg x))).advance

/-- `LD [I], Vx` (R183). -/
def execLdMemVx (x : Reg) (s : State) : Result := .next (s.memWriteBytes s.indexAddress (s.regsUpTo x)).advance

/-- `LD Vx, [I]` (R184). -/
def execLdVxMem (x : Reg) (s : State) : Result := .next (s.loadRegs (s.bytesUpTo x)).advance

end Sys2Proof.Machine
end

