-- ==== Sys2Proof/Machine/Step.lean ====
section
/-! DEFINITION. The step: one `Cycle` (70_reset_and_hazards.md R226), then the driver's gap. -/

namespace Sys2Proof.Machine

/-- Execute what the decoder made of the fetched word: an instruction, or the unknown word of 60_exceptions.md R191. -/
def execDecoded (d : Decoded) (s : State) : Host.Outcome State Fault Refusal :=
  match d with
  | .instr i => exec i s
  | .unknown w => execUnknown w s

/-- The machine's only step (70_reset_and_hazards.md R226): outputs set afresh, fetch, decode, execute, timer step; then
the driver's moves before the next cycle (20_memory.md R75). -/
def step (s : State) : Host.Outcome State Fault Refusal :=
  mapNext State.finishCycle (execDecoded (decode s.fetchWord) s.beginCycle)

/-- The state with a word of the opcode table stored where the next fetch reads it, high byte first, as a loader would
(70_reset_and_hazards.md R224; log entry 10). -/
def State.withFetchWord (s : State) (nbits w : Nat) : State :=
  s.memWriteBytes s.pc.toNat [highByte (tableWord nbits w), lowByte (tableWord nbits w)]

end Sys2Proof.Machine
end

