-- ==== Sys2Proof/Safety.lean ====
section
/-! DEFINITION. The words claims are stated in: the invariant of the memory, the frame of an instruction (00_scope.md R18),
the registers it reads and writes (10_state.md R22), and the cells a sprite covers (42_index_jump_random_draw.md R163). -/

namespace Sys2Proof.Machine

/-- The invariant that every step keeps: memory is in its canonical form (log entry 5). The bounds of 10_state.md R38
(sp at most 16, 8-bit and 16-bit values, cells 0 or 1) are carried by the types of State's fields. -/
def State.Inv (s : State) : Prop := Memory.wf s.params s.mem

/-- pc and every stack entry are even (10_state.md R38). -/
def State.EvenCode (s : State) : Prop := s.pc.toNat % 2 = 0 ∧ ∀ k : Fin 16, s.stack[k.val].toNat % 2 = 0

/-- The instruction, run in this state, does not set pc to an odd address: the targets of `JP` and `CALL` and the sum of
`JP V0` are even (10_state.md R38). -/
def evenTarget (s : State) : Instr → Prop
  | .jp nnn => nnn.toNat % 2 = 0
  | .call nnn => nnn.toNat % 2 = 0
  | .jpV0 nnn => (nnn.toNat + (s.reg 0).toNat) % 2 = 0
  | _ => True

/-- What an instruction may change beside pc; everything not named stays (00_scope.md R18). -/
structure Changes where
  /-- The general registers it may change. -/
  regs : List Reg := []
  /-- Whether it may change I. -/
  index : Bool := false
  /-- Whether it may change sp and the stack. -/
  stack : Bool := false
  /-- Whether it may change DT. -/
  delay : Bool := false
  /-- Whether it may change ST. -/
  sound : Bool := false
  /-- Whether it may change the framebuffer. -/
  display : Bool := false
  /-- The addresses it stores a byte to, before the reduction mod 4096. -/
  stores : List Nat := []
  /-- Whether it may set the report output. -/
  report : Bool := false
  /-- Whether it may set the tone output and add to its log. -/
  tone : Bool := false
  deriving DecidableEq, Repr

/-- From `s` to `t` nothing changes but pc and what `c` names: every register, I, the stack, the timers, every byte of
memory, the framebuffer, the outputs, the keypad, the parameters and the environment's inputs (00_scope.md R18). -/
def Frame (c : Changes) (s t : State) : Prop :=
  (∀ r, r ∉ c.regs → t.reg r = s.reg r) ∧
  (c.index = false → t.i = s.i) ∧
  (c.stack = false → t.sp = s.sp ∧ t.stack = s.stack) ∧
  (c.delay = false → t.dt = s.dt) ∧
  (c.sound = false → t.st = s.st) ∧
  (c.display = false → t.fb = s.fb) ∧
  (∀ a, (∀ b ∈ c.stores, a % 4096 ≠ b % 4096) → t.memRead a = s.memRead a) ∧
  (c.report = false → t.report = s.report) ∧
  (c.tone = false → t.tone = s.tone ∧ t.toneLog = s.toneLog) ∧
  t.keys = s.keys ∧ t.params = s.params ∧ t.rndIn = s.rndIn ∧ t.rndCount = s.rndCount ∧ t.driver = s.driver

/-- The addresses of `count` bytes from `addr` on. -/
def addressRun (addr count : Nat) : List Nat := (List.range count).map (fun k => addr + k)

/-- Registers 0 to x. -/
def regRange (x : Reg) : List Reg := (List.finRange 16).filter (fun r => r.val ≤ x.val)

/-- The general registers an instruction reads (10_state.md R22). -/
def regsRead : Instr → List Reg
  | .seImm x _ => [x]
  | .sneImm x _ => [x]
  | .seReg x y _ => [x, y]
  | .sneReg x y _ => [x, y]
  | .addImm x _ => [x]
  | .ldReg _ y => [y]
  | .orReg x y => [x, y]
  | .andReg x y => [x, y]
  | .xorReg x y => [x, y]
  | .addReg x y => [x, y]
  | .subReg x y => [x, y]
  | .shr x _ => [x]
  | .subnReg x y => [x, y]
  | .shl x _ => [x]
  | .jpV0 _ => [0]
  | .drw x y _ => [x, y]
  | .skp x => [x]
  | .sknp x => [x]
  | .ldDTVx x => [x]
  | .ldSTVx x => [x]
  | .addI x => [x]
  | .ldF x => [x]
  | .ldB x => [x]
  | .ldMemVx x => regRange x
  | .cls _ => []
  | .ret _ => []
  | .jp _ => []
  | .call _ => []
  | .ldImm _ _ => []
  | .ldI _ => []
  | .rnd _ _ => []
  | .ldVxDT _ => []
  | .ldVxK _ => []
  | .ldVxMem _ => []

/-- The general registers an instruction writes, run in this state (10_state.md R22): `LD Vx, K` writes Vx "only when a key
is pressed". -/
def regsWritten (s : State) : Instr → List Reg
  | .ldImm x _ => [x]
  | .addImm x _ => [x]
  | .ldReg x _ => [x]
  | .orReg x _ => [x]
  | .andReg x _ => [x]
  | .xorReg x _ => [x]
  | .addReg x _ => [x, flagReg]
  | .subReg x _ => [x, flagReg]
  | .shr x _ => [x, flagReg]
  | .subnReg x _ => [x, flagReg]
  | .shl x _ => [x, flagReg]
  | .rnd x _ => [x]
  | .drw _ _ _ => [flagReg]
  | .ldVxDT x => [x]
  | .ldVxK x => if ∃ k : Fin 16, s.keys[k.val] = true then [x] else []
  | .ldVxMem x => regRange x
  | .cls _ => []
  | .ret _ => []
  | .jp _ => []
  | .call _ => []
  | .seImm _ _ => []
  | .sneImm _ _ => []
  | .seReg _ _ _ => []
  | .sneReg _ _ _ => []
  | .ldI _ => []
  | .jpV0 _ => []
  | .skp _ => []
  | .sknp _ => []
  | .ldDTVx _ => []
  | .ldSTVx _ => []
  | .addI _ => []
  | .ldF _ => []
  | .ldB _ => []
  | .ldMemVx _ => []

/-- pc after an instruction that runs in state `s` (the table of 10_state.md R25). -/
def pcAfter (s : State) : Instr → Word
  | .jp nnn => BitVec.ofNat 16 nnn.toNat
  | .call nnn => if s.sp.val < 16 then BitVec.ofNat 16 nnn.toNat else s.pc + 2
  | .ret _ => if h : 0 < s.sp.val then s.stack[s.sp.val - 1]'(by omega) else s.pc + 2
  | .jpV0 nnn => BitVec.ofNat 16 ((s.reg 0).toNat + nnn.toNat)
  | .seImm x kk => if s.reg x = kk then s.pc + 4 else s.pc + 2
  | .sneImm x kk => if s.reg x = kk then s.pc + 2 else s.pc + 4
  | .seReg x y _ => if s.reg x = s.reg y then s.pc + 4 else s.pc + 2
  | .sneReg x y _ => if s.reg x = s.reg y then s.pc + 2 else s.pc + 4
  | .skp x => if s.keys[(s.reg x).toNat % 16]'(Nat.mod_lt _ (by omega)) = true then s.pc + 4 else s.pc + 2
  | .sknp x => if s.keys[(s.reg x).toNat % 16]'(Nat.mod_lt _ (by omega)) = true then s.pc + 2 else s.pc + 4
  | .ldVxK _ => if ∃ k : Fin 16, s.keys[k.val] = true then s.pc + 2 else s.pc
  | _ => s.pc + 2

/-- The report of a cycle whose word at pc decodes to `d` (60_exceptions.md R191, R192, R193): the three causes exclude each
other by the decoded instruction (R197). -/
def reportDue (s : State) : Decoded → Report
  | .unknown _ => .decodeError s.pc s.fetchWord
  | .instr (.call _) => if s.sp.val = 16 then .stackOverflow s.pc s.fetchWord else .none
  | .instr (.ret _) => if s.sp.val = 0 then .stackUnderflow s.pc s.fetchWord else .none
  | .instr _ => .none

/-- Whether a set bit of the sprite of `DRW Vx, Vy, n` lies on column `cx` and row `cy` of the screen: the sprite's corner is
at (Vx mod 64, Vy mod 32), its row r is the byte at I + r, and its column c is bit 7 - c (42_index_jump_random_draw.md R163). -/
def spriteCovers (s : State) (x y : Reg) (n : Nibble) (cx : Fin 64) (cy : Fin 32) : Prop :=
  ∃ r c : Nat, r < n.toNat ∧ c < 8 ∧ cx.val = (s.reg x).toNat % 64 + c ∧ cy.val = (s.reg y).toNat % 32 + r ∧
    (s.memRead (s.i.toNat + r)).getLsbD (7 - c) = true

end Sys2Proof.Machine
end

