-- ==== Sys2Proof/Certificates/Slice0/Obligations.lean ====
section
/-! DEFINITION. The statements for the provers, in the words of Safety.lean. Each docstring names the rule of the spec the
statement formalises. -/

open Sys2Proof Sys2Proof.Machine

/-- Decode and encode agree on every instruction (30_encoding.md R92, R97, R99; the selector values are the spec's, from
general knowledge but for 6xkk and 7xkk). -/
def Obligations.EveryInstructionDecodesFromItsWord : Prop :=
  ∀ i : Instr, decode (encode i) = .instr i

/-- No bit of a word is dropped by decoding (30_encoding.md R92, R96, R99). -/
def Obligations.EveryDecodedWordIsItsInstructionsWord : Prop :=
  ∀ (w : Word) (i : Instr), decode w = .instr i → encode i = w

/-- 30_encoding.md R97: "w decodes to the row iff (w AND mask) = match. No two rows overlap", on the spec's selector
values (general knowledge but for 6xkk and 7xkk). -/
def Obligations.DecodeFollowsTheOpcodeMap : Prop :=
  (opcodeMap.Pairwise fun a b => ∀ w : Word, ¬ (w &&& a.mask = a.pattern ∧ w &&& b.mask = b.pattern)) ∧
  ∀ (w : Word) (row : OpcodeRow), row ∈ opcodeMap →
    (w &&& row.mask = row.pattern ↔ ∃ i, decode w = .instr i ∧ rowNumber i = row.number)

/-- The unknown words are those of 30_encoding.md R108, and `Unknown` carries the word (R94). -/
def Obligations.UnknownWordsAreExactlyTheListedOnes : Prop :=
  ∀ w : Word,
    (∀ u : Word, decode w = .unknown u → u = w) ∧
    (decode w = .unknown w ↔
      (w.toNat / 4096 = 0x0 ∧ w.toNat % 256 ∉ [0xE0, 0xEE]) ∨
      (w.toNat / 4096 = 0x8 ∧ w.toNat % 16 ∈ [0x8, 0x9, 0xA, 0xB, 0xC, 0xD, 0xF]) ∨
      (w.toNat / 4096 = 0xE ∧ w.toNat % 256 ∉ [0x9E, 0xA1]) ∨
      (w.toNat / 4096 = 0xF ∧ w.toNat % 256 ∉ [0x07, 0x0A, 0x15, 0x18, 0x1E, 0x29, 0x33, 0x55, 0x65]))

/-- A sanity statement: decode vectors of 95_test_vectors.md section 2. -/
def Obligations.SpecExampleWordsDecode : Prop :=
  decode 0x0AE0 = .instr (.cls 0xA) ∧ decode 0x1ABC = .instr (.jp 0xABC) ∧
  decode 0x3A07 = .instr (.seImm 10 0x07) ∧ decode 0x5127 = .instr (.seReg 1 2 7) ∧
  decode 0x8AB7 = .instr (.subnReg 10 11) ∧ decode 0xA300 = .instr (.ldI 0x300) ∧
  decode 0xD125 = .instr (.drw 1 2 5) ∧ decode 0xE1A1 = .instr (.sknp 1) ∧
  decode 0xF355 = .instr (.ldMemVx 3) ∧ decode 0x0123 = .unknown 0x0123

/-- 30_encoding.md R96 (the spec's decision D11): these bits "are ignored by decode and by execution"; the report of `RET`
carries the raw word (10_state.md R47). -/
def Obligations.IgnoredBitsChangeNothing : Prop :=
  (∀ (i : Instr) (s : State), (∀ ign, i = .ret ign → 0 < s.sp.val) → exec i s = exec i.canonical s) ∧
  (∀ (ign : Nibble) (s : State), ∃ t t0, exec (.ret ign) s = .next t ∧ exec (.ret 0) s = .next t0 ∧
    { t with report := s.report } = { t0 with report := s.report }) ∧
  ∀ i : Instr, i.canonical.wellFormed = true

/-- 20_memory.md R61; that each byte address is reduced mod 4096, above 0x0FFF too, is the spec's decision D2 (log entry
9, DEDUCED). -/
def Obligations.FetchReadsTwoBytesHighFirst : Prop :=
  ∀ s : State, s.fetchWord.toNat =
    256 * (s.memRead (s.pc.toNat % 4096)).toNat + (s.memRead ((s.pc.toNat + 1) % 4096)).toNat

/-- 70_reset_and_hazards.md R226, with what the model's step adds: the random byte's counter (log entry 4), the driver's
gap (log entry 6) and the outputs held in State (log entry 7). Addresses mod 4096: the spec's decision D2 (log entry
9). -/
def Obligations.StepRunsTheFetchedInstruction : Prop :=
  ∀ (s t : State) (i : Instr),
    decode (s.memRead s.pc.toNat ++ s.memRead (s.pc.toNat + 1)) = .instr i →
    exec i { s with report := .none, tone := false, toneLog := [] } = .next t →
    step s = .next (applyMoves
      { (match t.params.timerMode with | .perCycle => t.tickTimers | .external => t) with
        rndIn := t.rndIn.tail, rndCount := t.rndCount + 1, driver := t.driver.tail }
      (t.driver.headD []))

/-- 60_exceptions.md R191 on the report mechanism of R190 (form of the report: the spec's decision D17). That State holds
the report and the tone output, that a cycle clears the tone output and its log when it begins (log entry 7), and that
the driver's gap is part of `finishCycle` (log entry 6), is the model's choice. The spec's decisions (log entry 9):
that nothing else changes is the frame rule 00_scope.md R18 (D22); pc advances mod 65536 (D19). -/
def Obligations.UnknownWordReportsAndAdvances : Prop :=
  ∀ s : State, (∃ u, decode s.fetchWord = .unknown u) →
    ∃ t : State, step s = .next t.finishCycle ∧ t.report = .decodeError s.pc s.fetchWord ∧ t.pc = s.pc + 2 ∧
      t.tone = false ∧ t.toneLog = [] ∧ Frame { report := true, tone := true } s t

/-- 70_reset_and_hazards.md R228. The external mode is the spec's decision D16; the mode as a field (log entry 3),
TimerTick as a move of the driver (log entry 6) and the tone output held in State (log entry 7) are the model's
choice. The spec's decisions (log entry 9): that nothing else changes is the frame rule 00_scope.md R18 (D22). -/
def Obligations.TimerStepCountsBothTimersDown : Prop :=
  (∀ s : State, s.tickTimers.dt.toNat = s.dt.toNat - 1 ∧ s.tickTimers.st.toNat = s.st.toNat - 1 ∧
    (s.tickTimers.tone = true ↔ s.st = 1) ∧ s.tickTimers.pc = s.pc ∧
    Frame { delay := true, sound := true, tone := true } s s.tickTimers) ∧
  ∀ s : State, s.params.timerMode = .external → applyMove s .timerTick = s.tickTimers

/-- 70_reset_and_hazards.md R226 and 43_keypad_and_timers.md R176 in the default mode (the spec's decision D16). The
driver's gap, empty here (log entry 6), and the tone output with its log, which a cycle clears when it begins (log
entry 7), are the model's choice. -/
def Obligations.CycleEndsWithTheTimerStep : Prop :=
  ∀ s u : State, s.params.timerMode = .perCycle → s.driver.headD [] = [] → step s = .next u →
    ∃ t : State, execDecoded (decode s.fetchWord) { s with report := .none, tone := false, toneLog := [] } = .next t ∧
      u.dt.toNat = t.dt.toNat - 1 ∧ u.st.toNat = t.st.toNat - 1 ∧ (u.tone = true ↔ t.st = 1) ∧
      u.toneLog = [u.tone] ∧
      u.v = t.v ∧ u.i = t.i ∧ u.pc = t.pc ∧ u.sp = t.sp ∧ u.stack = t.stack ∧ u.mem = t.mem ∧ u.fb = t.fb ∧
      u.keys = t.keys ∧ u.report = t.report

/-- 60_exceptions.md R204, with 43_keypad_and_timers.md R174 for the load of ST. That no other instruction emits the event
is the frame rule 00_scope.md R18 (the spec's decision D22, log entry 9); that State holds the tone output, and the
log of these outputs, is the model's choice (log entry 7). -/
def Obligations.ToneMarksTheStepFromOneToZero : Prop :=
  (∀ s : State,
    (s.tickTimers.tone = true ↔ s.st.toNat = 1 ∧ s.tickTimers.st.toNat = 0) ∧
    (s.st.toNat ≠ 1 → s.tickTimers.tone = false)) ∧
  ∀ (i : Instr) (s t : State), exec i s = .next t → t.tone = s.tone ∧ t.toneLog = s.toneLog

/-- 70_reset_and_hazards.md R226 and R227 (the spec's decision D16), with the tone output held as in log entry 7. The last
clause, that the driver's TimerTick changes nothing in the per-cycle mode, is the model's choice: log entry 6, DEDUCED
from 10_state.md R40, which has the operation in the external mode only. -/
def Obligations.ExternalModeLeavesTheTimersToTheDriver : Prop :=
  (∀ s u : State, s.params.timerMode = .external → s.driver.headD [] = [] → step s = .next u →
    u.tone = false ∧ u.toneLog = [] ∧
    ∃ t : State, execDecoded (decode s.fetchWord) { s with report := .none, tone := false, toneLog := [] } = .next t ∧
      u.dt = t.dt ∧ u.st = t.st ∧ u.pc = t.pc ∧ u.report = t.report) ∧
  ∀ s : State, s.params.timerMode = .perCycle → applyMove s .timerTick = s

/-- 00_scope.md R17: "The step function is total and deterministic given its inputs"; the stack errors go on by the spec's
decisions D3 and D4. -/
def Obligations.EveryCycleCompletes : Prop :=
  (∀ (i : Instr) (s : State), ∃ t, exec i s = .next t) ∧ ∀ s : State, ∃ u, step s = .next u

/-- The model's own invariant (log entry 5): equal memories are equal data. -/
def Obligations.EveryStepKeepsMemoryCanonical : Prop :=
  ∀ s u : State, s.Inv → step s = .next u → u.Inv

/-- The invariant of log entry 5 holds at reset. -/
def Obligations.ResetMemoryIsCanonical : Prop :=
  (∀ p : Params, (State.resetWith p).Inv) ∧ State.reset.Inv

/-- 70_reset_and_hazards.md R220, for all parameters. -/
def Obligations.ResetLeavesTheSpecValues : Prop :=
  ∀ s : State,
    (∀ r, s.resetCore.reg r = 0) ∧ s.resetCore.i = 0 ∧ s.resetCore.pc = 0x200 ∧ s.resetCore.sp.val = 0 ∧
    (∀ k : Fin 16, s.resetCore.stack[k.val] = 0) ∧ s.resetCore.dt = 0 ∧ s.resetCore.st = 0 ∧
    (∀ k : Fin 80, s.resetCore.memRead (s.params.fontBase.val + k.val) = s.params.fontTable[k.val]) ∧
    (∀ a, a < 4096 → (a < s.params.fontBase.val ∨ s.params.fontBase.val + 80 ≤ a) → s.resetCore.memRead a = 0) ∧
    (∀ cx cy, s.resetCore.pixel cx cy = false) ∧ ∀ k : Fin 16, s.resetCore.keys[k.val] = false

/-- 70_reset_and_hazards.md R224; that a longer image is rejected, not truncated, is the model's choice (log entry 8). The
spec's decisions (log entry 9): that nothing else changes is the frame rule 00_scope.md R18 (D22). -/
def Obligations.LoadedRomStandsAtTheEntryPoint : Prop :=
  ∀ (s : State) (image : List Byte),
    (image.length ≤ 3584 →
      (∀ (k : Nat) (h : k < image.length), (s.loadRom image).memRead (0x200 + k) = image[k]) ∧
      (s.loadRom image).pc = s.pc ∧ Frame { stores := addressRun 0x200 image.length } s (s.loadRom image)) ∧
    (3584 < image.length → s.loadRom image = s)

/-- What the canonical form of log entry 5 is for. -/
def Obligations.CanonicalMemoriesWithEqualReadsAreEqual : Prop :=
  ∀ (p : Params) (m m' : Memory), Memory.wf p m → Memory.wf p m' →
    (∀ a, a < 4096 → Memory.read p m a = Memory.read p m' a) → m = m'

/-- 20_memory.md R74 and 70_reset_and_hazards.md R231: a store is seen by the very next fetch; addresses mod 4096: D2. The
spec's decisions (log entry 9): pc advances mod 65536 (D19). -/
def Obligations.StoredWordIsFetchedNext : Prop :=
  ∀ (s : State) (x : Reg), 1 ≤ x.val → s.i = s.pc + 2 →
    ∃ t, exec (.ldMemVx x) s = .next t ∧
      t.fetchWord.toNat = 256 * (s.reg 0).toNat + (s.reg 1).toNat

/-- The frame rule 00_scope.md R18 (the spec's decision D22, log entry 9). -/
def Obligations.OnlyTheNamedInstructionsWriteEachState : Prop :=
  ∀ (i : Instr) (s t : State), exec i s = .next t →
    (t.i = s.i ∨ (∃ nnn, i = .ldI nnn) ∨ (∃ x, i = .addI x) ∨ ∃ x, i = .ldF x) ∧
    (t.fb = s.fb ∨ (∃ ign, i = .cls ign) ∨ ∃ x y n, i = .drw x y n) ∧
    (t.dt = s.dt ∨ ∃ x, i = .ldDTVx x) ∧ (t.st = s.st ∨ ∃ x, i = .ldSTVx x) ∧
    ((t.sp = s.sp ∧ t.stack = s.stack ∧ t.report = s.report) ∨ (∃ nnn, i = .call nnn) ∨ ∃ ign, i = .ret ign) ∧
    (t.mem = s.mem ∨ (∃ x, i = .ldB x) ∨ ∃ x, i = .ldMemVx x) ∧
    t.keys = s.keys ∧ t.params = s.params ∧ t.tone = s.tone ∧ t.toneLog = s.toneLog ∧
    t.rndIn = s.rndIn ∧ t.rndCount = s.rndCount ∧ t.driver = s.driver ∧
    (t.reg flagReg = s.reg flagReg ∨
      (∃ x y, i = .addReg x y ∨ i = .subReg x y ∨ i = .subnReg x y) ∨ (∃ x ign, i = .shr x ign ∨ i = .shl x ign) ∨
      (∃ x y n, i = .drw x y n) ∨
      (∃ kk, i = .ldImm flagReg kk ∨ i = .addImm flagReg kk ∨ i = .rnd flagReg kk) ∨
      (∃ y, i = .ldReg flagReg y ∨ i = .orReg flagReg y ∨ i = .andReg flagReg y ∨ i = .xorReg flagReg y) ∨
      i = .ldVxDT flagReg ∨ i = .ldVxK flagReg ∨ i = .ldVxMem flagReg)

/-- 10_state.md R22, as a bound on what is read and written; that nothing else is, is the frame rule 00_scope.md R18 (the
spec's decision D22, log entry 9). -/
def Obligations.RegistersReadAndWrittenAreTheListedOnes : Prop :=
  ∀ (i : Instr) (s : State) (v' : Vector Byte 16), (∀ r ∈ regsRead i, v'[r.val] = s.reg r) →
    ∃ t t' : State, exec i s = .next t ∧ exec i { s with v := v' } = .next t' ∧ t' = { t with v := t'.v } ∧
      ∀ r : Reg, (r ∈ regsWritten s i → t'.reg r = t.reg r) ∧
        (r ∉ regsWritten s i → t.reg r = s.reg r ∧ t'.reg r = v'[r.val])

/-- 10_state.md R28; that no other instruction reads or writes a timer is the frame rule 00_scope.md R18 (the spec's
decision D22, log entry 9). DelayTimerLoadIgnoresTheOldDelay says of LD DT, Vx that it does not read DT. -/
def Obligations.TimersAreReadAndWrittenOnlyAsListed : Prop :=
  (∀ x s, ∃ t, exec (.ldVxDT x) s = .next t ∧ t.reg x = s.dt) ∧
  (∀ x s, ∃ t, exec (.ldDTVx x) s = .next t ∧ t.dt = s.reg x) ∧
  (∀ x s, ∃ t, exec (.ldSTVx x) s = .next t ∧ t.st = s.reg x) ∧
  (∀ (i : Instr) (s t : State), exec i s = .next t →
    ((∀ x, i ≠ .ldDTVx x) → t.dt = s.dt) ∧ ((∀ x, i ≠ .ldSTVx x) → t.st = s.st)) ∧
  (∀ (i : Instr) (s : State) (b : Byte), (∀ x, i ≠ .ldVxDT x) → (∀ x, i ≠ .ldDTVx x) →
    exec i { s with dt := b } = mapNext (fun t => { t with dt := b }) (exec i s)) ∧
  (∀ (i : Instr) (s : State) (b : Byte), (∀ x, i ≠ .ldSTVx x) →
    exec i { s with st := b } = mapNext (fun t => { t with st := b }) (exec i s)) ∧
  (∀ (x : Reg) (s : State) (b : Byte), exec (.ldSTVx x) { s with st := b } = exec (.ldSTVx x) s) ∧
  (∀ s : State, (0 < s.dt.toNat → s.tickTimers.dt.toNat + 1 = s.dt.toNat) ∧ (s.dt = 0 → s.tickTimers.dt = 0) ∧
    (0 < s.st.toNat → s.tickTimers.st.toNat + 1 = s.st.toNat) ∧ (s.st = 0 → s.tickTimers.st = 0)) ∧
  ∀ s : State, s.resetCore.dt = 0 ∧ s.resetCore.st = 0

/-- 10_state.md R32 and R44 (the spec's decision D23), with the driver's gaps of log entry 6. -/
def Obligations.KeypadIsWrittenOnlyByTheDriver : Prop :=
  (∀ (i : Instr) (s t : State), exec i s = .next t → t.keys = s.keys) ∧
  (∀ s u : State, s.driver.headD [] = [] → step s = .next u → u.keys = s.keys) ∧
  (∀ (s : State) (keys : Vector Bool 16) (rest : List (List DriverMove)), s.driver = [.writeKeys keys] :: rest →
    ∃ u, step s = .next u ∧ u.keys = keys ∧ u.driver = rest) ∧
  ∀ (i : Instr) (s : State) (keys : Vector Bool 16),
    (∀ x, i ≠ .skp x) → (∀ x, i ≠ .sknp x) → (∀ x, i ≠ .ldVxK x) →
    exec i { s with keys := keys } = mapNext (fun t => { t with keys := keys }) (exec i s)

/-- The table of 10_state.md R25; the two stack-error rows rest on the spec's decisions D3 and D4, the wrap of pc on D19. -/
def Obligations.PcAfterEachInstructionIsTheTables : Prop :=
  ∀ (i : Instr) (s t : State), exec i s = .next t → t.pc = pcAfter s i

/-- 60_exceptions.md R190 to R193 and R197 (the spec's decisions D3, D4, D17); that State holds the report (log entry 7)
and that the step takes in the driver's gap (log entry 6) is the model's choice. A gap in which the driver invokes
Reset: ResetInTheGapClearsTheReport. -/
def Obligations.ReportsAreExactlyTheThreeErrors : Prop :=
  ∀ s u : State, DriverMove.reset ∉ s.driver.headD [] → step s = .next u →
    u.report = reportDue s (decode s.fetchWord)

/-- The derived invariant of 10_state.md R38; pc mod 65536 is the spec's decision D19 (log entry 9). The step takes in the
driver's gap, the model's choice (log entry 6). -/
def Obligations.EvenCodeStaysEven : Prop :=
  ∀ s u : State, s.EvenCode → (∀ i, decode s.fetchWord = .instr i → evenTarget s i) → step s = .next u → u.EvenCode

/-- 10_state.md R46 ("sampled once per cycle") and 00_scope.md R8, in the model's own fields (log entries 1, 2, 3, 4, 6). -/
def Obligations.EachCycleUsesOneRandomByte : Prop :=
  ∀ s u : State, step s = .next u →
    u.rndIn = s.rndIn.tail ∧ u.rndCount = s.rndCount + 1 ∧ u.driver = s.driver.tail ∧ u.params = s.params

/-- 40_flow_and_skips.md R121, its effect. The spec's decisions (log entry 9): that nothing else changes is the frame rule
00_scope.md R18 (D22); pc advances mod 65536 (D19). -/
def Obligations.ClsClearsEveryCell : Prop :=
  ∀ (ign : Nibble) (s : State), ∃ t, exec (.cls ign) s = .next t ∧
    (∀ cx cy, t.pixel cx cy = false) ∧ t.pc = s.pc + 2 ∧ Frame { display := true } s t

/-- 40_flow_and_skips.md R122, its effect; the case sp = 0 is the spec's decision D4. The spec's decisions (log entry 9):
that nothing else changes is the frame rule 00_scope.md R18 (D22); pc advances mod 65536 (D19). -/
def Obligations.ReturnPopsOrReports : Prop :=
  ∀ (ign : Nibble) (s : State),
    (∀ h : 0 < s.sp.val, ∃ t, exec (.ret ign) s = .next t ∧ t.pc = s.stack[s.sp.val - 1]'(by omega) ∧
      t.sp.val + 1 = s.sp.val ∧ t.stack = s.stack ∧ Frame { stack := true } s t) ∧
    (s.sp.val = 0 → ∃ t, exec (.ret ign) s = .next t ∧
      t.report = .stackUnderflow s.pc (BitVec.ofNat 16 (ign.toNat * 256 + 0xEE)) ∧ t.pc = s.pc + 2 ∧
      Frame { report := true } s t)

/-- 40_flow_and_skips.md R123, its effect. The spec's decisions (log entry 9): that nothing else changes is the frame rule
00_scope.md R18 (D22). -/
def Obligations.JumpSetsPc : Prop :=
  ∀ (nnn : Addr12) (s : State), ∃ t, exec (.jp nnn) s = .next t ∧ t.pc.toNat = nnn.toNat ∧ Frame {} s t

/-- 40_flow_and_skips.md R124, its effect; the case sp = 16 is the spec's decision D3. The spec's decisions (log entry 9):
that nothing else changes is the frame rule 00_scope.md R18 (D22); pc advances mod 65536 (D19). -/
def Obligations.CallPushesOrReports : Prop :=
  ∀ (nnn : Addr12) (s : State),
    (s.sp.val < 16 → ∃ t, exec (.call nnn) s = .next t ∧ t.pc.toNat = nnn.toNat ∧ t.sp.val = s.sp.val + 1 ∧
      (∀ k : Fin 16, (k.val = s.sp.val → t.stack[k.val].toNat = (s.pc.toNat + 2) % 65536) ∧
        (k.val ≠ s.sp.val → t.stack[k.val] = s.stack[k.val])) ∧
      Frame { stack := true } s t) ∧
    (s.sp.val = 16 → ∃ t, exec (.call nnn) s = .next t ∧
      t.report = .stackOverflow s.pc (BitVec.ofNat 16 (0x2000 + nnn.toNat)) ∧ t.pc = s.pc + 2 ∧
      Frame { report := true } s t)

/-- 40_flow_and_skips.md R124: "return to the instruction following the call". The spec's decisions (log entry 9): pc
advances mod 65536 (D19). -/
def Obligations.ReturnUndoesCall : Prop :=
  ∀ (nnn : Addr12) (ign : Nibble) (s : State), s.sp.val < 16 →
    ∃ t u, exec (.call nnn) s = .next t ∧ exec (.ret ign) t = .next u ∧ u.pc = s.pc + 2 ∧ u.sp = s.sp ∧
      ∀ k : Fin 16, k.val < s.sp.val → u.stack[k.val] = s.stack[k.val]

/-- 40_flow_and_skips.md R125 and R126, their effects. The spec's decisions (log entry 9): that nothing else changes is
the frame rule 00_scope.md R18 (D22); pc advances mod 65536 (D19). -/
def Obligations.CompareWithImmediateSkips : Prop :=
  ∀ (x : Reg) (kk : Byte) (s : State),
    (∃ t, exec (.seImm x kk) s = .next t ∧ Frame {} s t ∧
      (s.reg x = kk → t.pc.toNat = (s.pc.toNat + 4) % 65536) ∧ (s.reg x ≠ kk → t.pc.toNat = (s.pc.toNat + 2) % 65536)) ∧
    (∃ t, exec (.sneImm x kk) s = .next t ∧ Frame {} s t ∧
      (s.reg x ≠ kk → t.pc.toNat = (s.pc.toNat + 4) % 65536) ∧ (s.reg x = kk → t.pc.toNat = (s.pc.toNat + 2) % 65536))

/-- 40_flow_and_skips.md R127 and R128, their effects. The spec's decisions (log entry 9): that nothing else changes is
the frame rule 00_scope.md R18 (D22); pc advances mod 65536 (D19). -/
def Obligations.CompareRegistersSkips : Prop :=
  ∀ (x y : Reg) (ign : Nibble) (s : State),
    (∃ t, exec (.seReg x y ign) s = .next t ∧ Frame {} s t ∧
      (s.reg x = s.reg y → t.pc.toNat = (s.pc.toNat + 4) % 65536) ∧
      (s.reg x ≠ s.reg y → t.pc.toNat = (s.pc.toNat + 2) % 65536)) ∧
    (∃ t, exec (.sneReg x y ign) s = .next t ∧ Frame {} s t ∧
      (s.reg x ≠ s.reg y → t.pc.toNat = (s.pc.toNat + 4) % 65536) ∧
      (s.reg x = s.reg y → t.pc.toNat = (s.pc.toNat + 2) % 65536))

/-- 41_load_and_alu.md R140 and R141, their encodings (which the source gives) included. The spec's decisions (log entry
9): that nothing else changes is the frame rule 00_scope.md R18 (D22); pc advances mod 65536 (D19). -/
def Obligations.LoadAndAddImmediate : Prop :=
  ∀ (x : Reg) (kk : Byte),
    decode (BitVec.ofNat 16 (0x6000 + x.val * 256 + kk.toNat)) = .instr (.ldImm x kk) ∧
    decode (BitVec.ofNat 16 (0x7000 + x.val * 256 + kk.toNat)) = .instr (.addImm x kk) ∧
    ∀ s : State,
      (∃ t, exec (.ldImm x kk) s = .next t ∧ t.reg x = kk ∧ t.pc = s.pc + 2 ∧ Frame { regs := [x] } s t) ∧
      (∃ t, exec (.addImm x kk) s = .next t ∧ (t.reg x).toNat = ((s.reg x).toNat + kk.toNat) % 256 ∧
        t.pc = s.pc + 2 ∧ Frame { regs := [x] } s t)

/-- 41_load_and_alu.md R142 to R145, their effects. The spec's decisions (log entry 9): that nothing else changes is the
frame rule 00_scope.md R18 (D22); pc advances mod 65536 (D19). -/
def Obligations.CopyAndBitwiseOperations : Prop :=
  ∀ (x y : Reg) (s : State),
    (∃ t, exec (.ldReg x y) s = .next t ∧ t.reg x = s.reg y ∧ t.pc = s.pc + 2 ∧ Frame { regs := [x] } s t) ∧
    (∃ t, exec (.orReg x y) s = .next t ∧
      (∀ k, (t.reg x).getLsbD k = ((s.reg x).getLsbD k || (s.reg y).getLsbD k)) ∧
      t.pc = s.pc + 2 ∧ Frame { regs := [x] } s t) ∧
    (∃ t, exec (.andReg x y) s = .next t ∧
      (∀ k, (t.reg x).getLsbD k = ((s.reg x).getLsbD k && (s.reg y).getLsbD k)) ∧
      t.pc = s.pc + 2 ∧ Frame { regs := [x] } s t) ∧
    (∃ t, exec (.xorReg x y) s = .next t ∧
      (∀ k, (t.reg x).getLsbD k = ((s.reg x).getLsbD k ^^ (s.reg y).getLsbD k)) ∧
      t.pc = s.pc + 2 ∧ Frame { regs := [x] } s t)

/-- 41_load_and_alu.md R146, its effect. The spec's decisions (log entry 9): that nothing else changes is the frame rule
00_scope.md R18 (D22); pc advances mod 65536 (D19). -/
def Obligations.AddSetsCarry : Prop :=
  ∀ (x y : Reg) (s : State), ∃ t, exec (.addReg x y) s = .next t ∧
    (255 < (s.reg x).toNat + (s.reg y).toNat → t.reg flagReg = 1) ∧
    ((s.reg x).toNat + (s.reg y).toNat ≤ 255 → t.reg flagReg = 0) ∧
    (x ≠ flagReg → (t.reg x).toNat = ((s.reg x).toNat + (s.reg y).toNat) % 256) ∧
    t.pc = s.pc + 2 ∧ Frame { regs := [x, flagReg] } s t

/-- 41_load_and_alu.md R147 and R149, their effects; with x = 15 the flag wins by the spec's decision D6. The spec's
decisions (log entry 9): that nothing else changes is the frame rule 00_scope.md R18 (D22); pc advances mod 65536
(D19). -/
def Obligations.SubtractsSetTheStrictFlag : Prop :=
  ∀ (x y : Reg) (s : State),
    (∃ t, exec (.subReg x y) s = .next t ∧
      ((s.reg y).toNat < (s.reg x).toNat → t.reg flagReg = 1) ∧ ((s.reg x).toNat ≤ (s.reg y).toNat → t.reg flagReg = 0) ∧
      (x ≠ flagReg → ((t.reg x).toNat : Int) = (((s.reg x).toNat : Int) - (s.reg y).toNat) % 256) ∧
      t.pc = s.pc + 2 ∧ Frame { regs := [x, flagReg] } s t) ∧
    (∃ t, exec (.subnReg x y) s = .next t ∧
      ((s.reg x).toNat < (s.reg y).toNat → t.reg flagReg = 1) ∧ ((s.reg y).toNat ≤ (s.reg x).toNat → t.reg flagReg = 0) ∧
      (x ≠ flagReg → ((t.reg x).toNat : Int) = (((s.reg y).toNat : Int) - (s.reg x).toNat) % 256) ∧
      t.pc = s.pc + 2 ∧ Frame { regs := [x, flagReg] } s t)

/-- 41_load_and_alu.md R148 and R150, their effects; with x = 15 the flag wins by the spec's decision D6. The spec's
decisions (log entry 9): that nothing else changes is the frame rule 00_scope.md R18 (D22); pc advances mod 65536
(D19). -/
def Obligations.ShiftsMoveOneBitIntoTheFlag : Prop :=
  ∀ (x : Reg) (ign : Nibble) (s : State),
    (∃ t, exec (.shr x ign) s = .next t ∧ (t.reg flagReg).toNat = (s.reg x).toNat % 2 ∧
      (x ≠ flagReg → (t.reg x).toNat = (s.reg x).toNat / 2) ∧
      t.pc = s.pc + 2 ∧ Frame { regs := [x, flagReg] } s t) ∧
    (∃ t, exec (.shl x ign) s = .next t ∧ (t.reg flagReg).toNat = (s.reg x).toNat / 128 ∧
      (x ≠ flagReg → (t.reg x).toNat = 2 * (s.reg x).toNat % 256) ∧
      t.pc = s.pc + 2 ∧ Frame { regs := [x, flagReg] } s t)

/-- 42_index_jump_random_draw.md R160, the instruction supplied by the spec's decision D9. The spec's decisions (log entry
9): that nothing else changes is the frame rule 00_scope.md R18 (D22); pc advances mod 65536 (D19). -/
def Obligations.LoadIndexSetsI : Prop :=
  ∀ (nnn : Addr12) (s : State), ∃ t, exec (.ldI nnn) s = .next t ∧ t.i.toNat = nnn.toNat ∧ t.pc = s.pc + 2 ∧
    Frame { index := true } s t

/-- 42_index_jump_random_draw.md R161, its effect. The spec's decisions (log entry 9): that nothing else changes is the
frame rule 00_scope.md R18 (D22). -/
def Obligations.JumpWithOffsetAddsV0 : Prop :=
  ∀ (nnn : Addr12) (s : State), ∃ t, exec (.jpV0 nnn) s = .next t ∧ t.pc.toNat = nnn.toNat + (s.reg 0).toNat ∧
    Frame {} s t

/-- 42_index_jump_random_draw.md R162, its effect, for every value of the random byte (log entry 4). The spec's decisions
(log entry 9): that nothing else changes is the frame rule 00_scope.md R18 (D22); pc advances mod 65536 (D19). -/
def Obligations.RandomByteIsMasked : Prop :=
  ∀ (x : Reg) (kk : Byte) (s : State), ∃ t, exec (.rnd x kk) s = .next t ∧
    (∀ b rest, s.rndIn = b :: rest → t.reg x = b &&& kk) ∧
    (s.rndIn = [] → t.reg x = Config.freeRandom s.rndCount &&& kk) ∧
    (∀ k, kk.getLsbD k = false → (t.reg x).getLsbD k = false) ∧
    t.pc = s.pc + 2 ∧ Frame { regs := [x] } s t

/-- 42_index_jump_random_draw.md R163 and R164, their effect: the loops do what the coverage says (the spec's decisions
D5, D7, D18; the sprite's addresses mod 4096 by D2). The spec's decisions (log entry 9): that nothing else changes is
the frame rule 00_scope.md R18 (D22); pc advances mod 65536 (D19). -/
def Obligations.DrawFlipsExactlyTheCoveredCells : Prop :=
  ∀ (x y : Reg) (n : Nibble) (s : State), ∃ t, exec (.drw x y n) s = .next t ∧
    (∀ cx cy, t.pixel cx cy ≠ s.pixel cx cy ↔ spriteCovers s x y n cx cy) ∧
    ((∃ cx cy, spriteCovers s x y n cx cy ∧ s.pixel cx cy = true) → t.reg flagReg = 1) ∧
    ((∀ cx cy, spriteCovers s x y n cx cy → s.pixel cx cy = false) → t.reg flagReg = 0) ∧
    t.pc = s.pc + 2 ∧ Frame { regs := [flagReg], display := true } s t

/-- The source property S5 in 42_index_jump_random_draw.md R163: "double-XOR restores original". The spec's decisions (log
entry 9): a sprite that crosses an edge is clipped (R164, D5), its addresses are mod 4096 (D2), cells are numbered row
by row (D18), and the first draw leaves I, the coordinates and memory (R18, D22). A coordinate in VF, which the first
draw overwrites, is left out here; its single draw is in DrawFlipsExactlyTheCoveredCells. -/
def Obligations.DrawTwiceRestoresTheScreen : Prop :=
  ∀ (x y : Reg) (n : Nibble) (s : State), x ≠ flagReg → y ≠ flagReg →
    ∃ t u, exec (.drw x y n) s = .next t ∧ exec (.drw x y n) t = .next u ∧ u.fb = s.fb ∧
      ((∃ cx cy, spriteCovers s x y n cx cy) → (∀ cx cy, spriteCovers s x y n cx cy → s.pixel cx cy = false) →
        t.reg flagReg = 0 ∧ u.reg flagReg = 1)

/-- 43_keypad_and_timers.md R170 and R171, their effects. The spec's decisions (log entry 9): that nothing else changes is
the frame rule 00_scope.md R18 (D22); pc advances mod 65536 (D19). -/
def Obligations.KeySkipsTestTheMaskedKey : Prop :=
  ∀ (x : Reg) (s : State) (k : Fin 16), k.val = (s.reg x).toNat % 16 →
    (∃ t, exec (.skp x) s = .next t ∧ Frame {} s t ∧
      (s.keys[k.val] = true → t.pc = s.pc + 4) ∧ (s.keys[k.val] = false → t.pc = s.pc + 2)) ∧
    (∃ t, exec (.sknp x) s = .next t ∧ Frame {} s t ∧
      (s.keys[k.val] = false → t.pc = s.pc + 4) ∧ (s.keys[k.val] = true → t.pc = s.pc + 2))

/-- 43_keypad_and_timers.md R172 to R174, their effects before the timer step. The spec's decisions (log entry 9): that
nothing else changes is the frame rule 00_scope.md R18 (D22); pc advances mod 65536 (D19). -/
def Obligations.TimerMovesCopyOneByte : Prop :=
  ∀ (x : Reg) (s : State),
    (∃ t, exec (.ldVxDT x) s = .next t ∧ t.reg x = s.dt ∧ t.pc = s.pc + 2 ∧ Frame { regs := [x] } s t) ∧
    (∃ t, exec (.ldDTVx x) s = .next t ∧ t.dt = s.reg x ∧ t.pc = s.pc + 2 ∧ Frame { delay := true } s t) ∧
    (∃ t, exec (.ldSTVx x) s = .next t ∧ t.st = s.reg x ∧ t.pc = s.pc + 2 ∧ Frame { sound := true } s t)

/-- 43_keypad_and_timers.md R175, its effect. The spec's decisions (log entry 9): that nothing else changes is the frame
rule 00_scope.md R18 (D22); pc advances mod 65536 (D19). -/
def Obligations.WaitForKeyTakesTheLeastPressedKey : Prop :=
  ∀ (x : Reg) (s : State),
    ((∀ k : Fin 16, s.keys[k.val] = false) → exec (.ldVxK x) s = .next s) ∧
    (∀ k : Fin 16, s.keys[k.val] = true → (∀ j : Fin 16, j.val < k.val → s.keys[j.val] = false) →
      ∃ t, exec (.ldVxK x) s = .next t ∧ (t.reg x).toNat = k.val ∧ t.pc = s.pc + 2 ∧ Frame { regs := [x] } s t)

/-- 44_index_memory.md R180, its effect. The spec's decisions (log entry 9): that nothing else changes is the frame rule
00_scope.md R18 (D22). -/
def Obligations.AddToIndexWrapsAtSixteenBits : Prop :=
  ∀ (x : Reg) (s : State), ∃ t, exec (.addI x) s = .next t ∧ t.i.toNat = (s.i.toNat + (s.reg x).toNat) % 65536 ∧
    t.pc = s.pc + 2 ∧ Frame { index := true } s t

/-- 44_index_memory.md R181, its effect; the mask is the spec's decision D14. The spec's decisions (log entry 9): that
nothing else changes is the frame rule 00_scope.md R18 (D22); pc advances mod 65536 (D19). -/
def Obligations.FontAddressOfTheLowDigit : Prop :=
  ∀ (x : Reg) (s : State), ∃ t, exec (.ldF x) s = .next t ∧
    t.i.toNat = s.params.fontBase.val + 5 * ((s.reg x).toNat % 16) ∧ t.i.toNat < 0x200 ∧
    t.pc = s.pc + 2 ∧ Frame { index := true } s t

/-- 44_index_memory.md R182, its effect; addresses are reduced mod 4096 by the spec's decision D2. The spec's decisions
(log entry 9): that nothing else changes is the frame rule 00_scope.md R18 (D22); pc advances mod 65536 (D19). -/
def Obligations.BcdStoresThreeDigits : Prop :=
  ∀ (x : Reg) (s : State), ∃ t, exec (.ldB x) s = .next t ∧
    (t.memRead s.indexAddress).toNat = (s.reg x).toNat / 100 ∧
    (t.memRead (s.indexAddress + 1)).toNat = (s.reg x).toNat / 10 % 10 ∧
    (t.memRead (s.indexAddress + 2)).toNat = (s.reg x).toNat % 10 ∧
    t.pc = s.pc + 2 ∧ Frame { stores := addressRun s.indexAddress 3 } s t

/-- 44_index_memory.md R183, its effect; addresses mod 4096 by the spec's decision D2, I unchanged by D22. The spec's
decisions (log entry 9): pc advances mod 65536 (D19). -/
def Obligations.DumpStoresRegistersUpToX : Prop :=
  ∀ (x : Reg) (s : State), ∃ t, exec (.ldMemVx x) s = .next t ∧
    (∀ k : Reg, k.val ≤ x.val → t.memRead (s.indexAddress + k.val) = s.reg k) ∧
    t.pc = s.pc + 2 ∧ Frame { stores := addressRun s.indexAddress (x.val + 1) } s t

/-- 44_index_memory.md R184, its effect; addresses mod 4096 by the spec's decision D2, I unchanged by D22. The spec's
decisions (log entry 9): pc advances mod 65536 (D19). -/
def Obligations.LoadFillsRegistersUpToX : Prop :=
  ∀ (x : Reg) (s : State), ∃ t, exec (.ldVxMem x) s = .next t ∧
    (∀ k : Reg, k.val ≤ x.val → t.reg k = s.memRead (s.indexAddress + k.val)) ∧
    t.pc = s.pc + 2 ∧ Frame { regs := regRange x } s t

/-- 10_state.md R37 and R41: the outputs are None and no event. That State holds them and the log of the tone outputs (log
entry 7), and keeps the log and the environment's queues (log entries 4, 6), is the model's choice. -/
def Obligations.ResetClearsTheLatchesAndKeepsTheEnvironment : Prop :=
  ∀ s : State, s.resetCore.report = .none ∧ s.resetCore.tone = false ∧ s.resetCore.params = s.params ∧
    s.resetCore.rndIn = s.rndIn ∧ s.resetCore.rndCount = s.rndCount ∧ s.resetCore.driver = s.driver ∧
    s.resetCore.toneLog = s.toneLog ∧
    { s.resetCore with toneLog := [], rndIn := [], rndCount := 0, driver := [] } = State.resetWith s.params

/-- 10_state.md R28 and 43_keypad_and_timers.md R173; that LD DT, Vx reads no other state than Vx is the spec's decision
D22 (log entry 9). -/
def Obligations.DelayTimerLoadIgnoresTheOldDelay : Prop :=
  ∀ (x : Reg) (s : State) (b : Byte), exec (.ldDTVx x) { s with dt := b } = exec (.ldDTVx x) s

/-- 10_state.md R45, for several timer steps in one gap: the tone output is "true in exactly those timer steps in which ST
was 1 before the decrement", "false otherwise". The external mode is the spec's decision D16; the gap (log entry 6)
and the log of the outputs (log entry 7) are the model's choice. -/
def Obligations.EachTimerStepGivesItsOwnTone : Prop :=
  ∀ (s u : State) (k : Nat), s.params.timerMode = .external → s.driver.headD [] = List.replicate (k + 1) .timerTick →
    step s = .next u →
    ∃ t : State, execDecoded (decode s.fetchWord) { s with report := .none, tone := false, toneLog := [] } = .next t ∧
      u.toneLog.length = k + 1 ∧
      (∀ (j : Nat) (h : j < u.toneLog.length), u.toneLog[j] = true ↔ t.st.toNat = j + 1) ∧
      (u.tone = true ↔ t.st.toNat = k + 1) ∧
      u.dt.toNat = t.dt.toNat - (k + 1) ∧ u.st.toNat = t.st.toNat - (k + 1)

/-- 10_state.md R37, R41 and R48. The driver's gap (log entry 6) and that State holds the report (log entry 7) are the
model's choice. It takes in the gaps that ReportsAreExactlyTheThreeErrors leaves out. -/
def Obligations.ResetInTheGapClearsTheReport : Prop :=
  ∀ s u : State, DriverMove.reset ∈ s.driver.headD [] → step s = .next u → u.report = .none

/-- 41_load_and_alu.md R140 and R141, with `next` as 00_scope.md R14 names it. -/
def Obligations.ImmediateInstructionsAsTheirRulesSay : Prop :=
  ∀ (x : Reg) (kk : Byte),
    decode (BitVec.ofNat 16 (0x6000 + x.val * 256 + kk.toNat)) = .instr (.ldImm x kk) ∧
    decode (BitVec.ofNat 16 (0x7000 + x.val * 256 + kk.toNat)) = .instr (.addImm x kk) ∧
    ∀ s : State,
      (∃ t, exec (.ldImm x kk) s = .next t ∧ t.reg x = kk ∧ t.pc = nextPc s.pc ∧
        (x ≠ flagReg → t.reg flagReg = s.reg flagReg) ∧ t.report = s.report) ∧
      (∃ t, exec (.addImm x kk) s = .next t ∧ (t.reg x).toNat = ((s.reg x).toNat + kk.toNat) % 256 ∧
        t.pc = nextPc s.pc ∧ (x ≠ flagReg → t.reg flagReg = s.reg flagReg) ∧ t.report = s.report) ∧
      exec (.addImm x 0) s = .next { s with pc := nextPc s.pc }

/-- 10_state.md R45 and 70_reset_and_hazards.md R228 from every state; the log of the outputs is the model's choice (log
entry 7). -/
def Obligations.TimerStepAddsItsOutputToTheLog : Prop :=
  ∀ s : State, (s.tickTimers.tone = true ↔ s.st.toNat = 1) ∧ s.tickTimers.toneLog = s.toneLog ++ [s.tickTimers.tone]
end

