-- ==== Sys2Proof/Laws/Decode.lean ====
section
/-! SUPPORT. The fields and formats of the word as numbers (30_encoding.md R91, R92), and each field of each format. -/

namespace Sys2Proof

/-! ### Fields and formats as numbers -/

theorem toNat_fieldOp (w : Word) : (fieldOp w).toNat = w.toNat / 4096 := by
  have := w.isLt
  simp only [fieldOp, BitVec.extractLsb'_toNat, Nat.shiftRight_eq_div_pow]; omega

theorem toNat_fieldX (w : Word) : (fieldX w).toNat = w.toNat / 256 % 16 := by
  simp only [fieldX, BitVec.extractLsb'_toNat, Nat.shiftRight_eq_div_pow]

theorem toNat_fieldY (w : Word) : (fieldY w).toNat = w.toNat / 16 % 16 := by
  simp only [fieldY, BitVec.extractLsb'_toNat, Nat.shiftRight_eq_div_pow]

theorem toNat_fieldN (w : Word) : (fieldN w).toNat = w.toNat % 16 := by
  simp only [fieldN, BitVec.extractLsb'_toNat, Nat.shiftRight_eq_div_pow]; omega

theorem toNat_fieldKK (w : Word) : (fieldKK w).toNat = w.toNat % 256 := by
  simp only [fieldKK, BitVec.extractLsb'_toNat, Nat.shiftRight_eq_div_pow]; omega

theorem toNat_fieldNNN (w : Word) : (fieldNNN w).toNat = w.toNat % 4096 := by
  simp only [fieldNNN, BitVec.extractLsb'_toNat, Nat.shiftRight_eq_div_pow]; omega

/-- A concatenation as a number: the left operand above the right one. -/
theorem toNat_append_eq {m n : Nat} (a : BitVec m) (b : BitVec n) : (a ++ b).toNat = a.toNat * 2 ^ n + b.toNat := by
  rw [BitVec.toNat_append, ← Nat.shiftLeft_add_eq_or_of_lt b.isLt, Nat.shiftLeft_eq]

theorem toNat_formatNNN (op : Nibble) (nnn : Addr12) : (formatNNN op nnn).toNat = op.toNat * 4096 + nnn.toNat :=
  toNat_append_eq op nnn

theorem toNat_formatXKK (op x : Nibble) (kk : Byte) :
    (formatXKK op x kk).toNat = op.toNat * 4096 + x.toNat * 256 + kk.toNat := by
  have h : (formatXKK op x kk).toNat = (op ++ x).toNat * 2 ^ 8 + kk.toNat := toNat_append_eq (op ++ x) kk
  rw [h, toNat_append_eq]; omega

theorem toNat_formatXYN (op x y n : Nibble) :
    (formatXYN op x y n).toNat = op.toNat * 4096 + x.toNat * 256 + y.toNat * 16 + n.toNat := by
  have h : (formatXYN op x y n).toNat = (op ++ x ++ y).toNat * 2 ^ 4 + n.toNat := toNat_append_eq (op ++ x ++ y) n
  rw [h, toNat_append_eq, toNat_append_eq]; omega

theorem toNat_wordOfBytes (high low : Byte) : (wordOfBytes high low).toNat = high.toNat * 256 + low.toNat :=
  toNat_append_eq high low

/-! ### Each field of each format -/

@[simp] theorem fieldOp_formatNNN (op : Nibble) (nnn : Addr12) : fieldOp (formatNNN op nnn) = op := by
  apply BitVec.eq_of_toNat_eq; rw [toNat_fieldOp, toNat_formatNNN]; omega

@[simp] theorem fieldNNN_formatNNN (op : Nibble) (nnn : Addr12) : fieldNNN (formatNNN op nnn) = nnn := by
  apply BitVec.eq_of_toNat_eq; rw [toNat_fieldNNN, toNat_formatNNN]; omega

@[simp] theorem fieldOp_formatXKK (op x : Nibble) (kk : Byte) : fieldOp (formatXKK op x kk) = op := by
  apply BitVec.eq_of_toNat_eq; rw [toNat_fieldOp, toNat_formatXKK]; omega

@[simp] theorem fieldX_formatXKK (op x : Nibble) (kk : Byte) : fieldX (formatXKK op x kk) = x := by
  apply BitVec.eq_of_toNat_eq; rw [toNat_fieldX, toNat_formatXKK]; omega

@[simp] theorem fieldKK_formatXKK (op x : Nibble) (kk : Byte) : fieldKK (formatXKK op x kk) = kk := by
  apply BitVec.eq_of_toNat_eq; rw [toNat_fieldKK, toNat_formatXKK]; omega

@[simp] theorem fieldOp_formatXYN (op x y n : Nibble) : fieldOp (formatXYN op x y n) = op := by
  apply BitVec.eq_of_toNat_eq; rw [toNat_fieldOp, toNat_formatXYN]; omega

@[simp] theorem fieldX_formatXYN (op x y n : Nibble) : fieldX (formatXYN op x y n) = x := by
  apply BitVec.eq_of_toNat_eq; rw [toNat_fieldX, toNat_formatXYN]; omega

@[simp] theorem fieldY_formatXYN (op x y n : Nibble) : fieldY (formatXYN op x y n) = y := by
  apply BitVec.eq_of_toNat_eq; rw [toNat_fieldY, toNat_formatXYN]; omega

@[simp] theorem fieldN_formatXYN (op x y n : Nibble) : fieldN (formatXYN op x y n) = n := by
  apply BitVec.eq_of_toNat_eq; rw [toNat_fieldN, toNat_formatXYN]; omega

@[simp] theorem regOf_regField (x : Reg) : regOf (regField x) = x := rfl

@[simp] theorem regField_regOf (f : Nibble) : regField (regOf f) = f := rfl

/-! ### A word is its fields -/

theorem formatNNN_fields (w : Word) : formatNNN (fieldOp w) (fieldNNN w) = w := by
  apply BitVec.eq_of_toNat_eq; rw [toNat_formatNNN, toNat_fieldOp, toNat_fieldNNN]; omega

theorem formatXKK_fields (w : Word) : formatXKK (fieldOp w) (fieldX w) (fieldKK w) = w := by
  apply BitVec.eq_of_toNat_eq; rw [toNat_formatXKK, toNat_fieldOp, toNat_fieldX, toNat_fieldKK]; omega

theorem formatXYN_fields (w : Word) : formatXYN (fieldOp w) (fieldX w) (fieldY w) (fieldN w) = w := by
  apply BitVec.eq_of_toNat_eq; rw [toNat_formatXYN, toNat_fieldOp, toNat_fieldX, toNat_fieldY, toNat_fieldN]; omega

/-- A nibble that is none of 0 to 14 is 15: the last branch of the decision list (30_encoding.md R99). -/
theorem nibble_last {n : Nibble} (h0 : n ≠ 0) (h1 : n ≠ 1) (h2 : n ≠ 2) (h3 : n ≠ 3) (h4 : n ≠ 4) (h5 : n ≠ 5)
    (h6 : n ≠ 6) (h7 : n ≠ 7) (h8 : n ≠ 8) (h9 : n ≠ 9) (hA : n ≠ 10) (hB : n ≠ 11) (hC : n ≠ 12) (hD : n ≠ 13)
    (hE : n ≠ 14) : n = 0xF := by
  bv_omega

/-! ### The decision list by its primary selector (30_encoding.md R99) -/

/-- The sixteen primary selectors. -/
theorem nibble_cases (n : Nibble) : n = 0x0 ∨ n = 0x1 ∨ n = 0x2 ∨ n = 0x3 ∨ n = 0x4 ∨ n = 0x5 ∨ n = 0x6 ∨ n = 0x7 ∨
    n = 0x8 ∨ n = 0x9 ∨ n = 0xA ∨ n = 0xB ∨ n = 0xC ∨ n = 0xD ∨ n = 0xE ∨ n = 0xF := by
  bv_omega

section Selected

variable {w : Word}

theorem decode_op0 (h : fieldOp w = 0x0) : decode w = decodeFamily0 w := by
  simp [decode, h]

theorem decode_op1 (h : fieldOp w = 0x1) : decode w = .instr (.jp (fieldNNN w)) := by
  simp [decode, h]

theorem decode_op2 (h : fieldOp w = 0x2) : decode w = .instr (.call (fieldNNN w)) := by
  simp [decode, h]

theorem decode_op3 (h : fieldOp w = 0x3) : decode w = .instr (.seImm (regOf (fieldX w)) (fieldKK w)) := by
  simp [decode, h]

theorem decode_op4 (h : fieldOp w = 0x4) : decode w = .instr (.sneImm (regOf (fieldX w)) (fieldKK w)) := by
  simp [decode, h]

theorem decode_op5 (h : fieldOp w = 0x5) : decode w = .instr (.seReg (regOf (fieldX w)) (regOf (fieldY w)) (fieldN w)) := by
  simp [decode, h]

theorem decode_op6 (h : fieldOp w = 0x6) : decode w = .instr (.ldImm (regOf (fieldX w)) (fieldKK w)) := by
  simp [decode, h]

theorem decode_op7 (h : fieldOp w = 0x7) : decode w = .instr (.addImm (regOf (fieldX w)) (fieldKK w)) := by
  simp [decode, h]

theorem decode_op8 (h : fieldOp w = 0x8) : decode w = decodeFamily8 w := by
  simp [decode, h]

theorem decode_op9 (h : fieldOp w = 0x9) : decode w = .instr (.sneReg (regOf (fieldX w)) (regOf (fieldY w)) (fieldN w)) := by
  simp [decode, h]

theorem decode_opA (h : fieldOp w = 0xA) : decode w = .instr (.ldI (fieldNNN w)) := by
  simp [decode, h]

theorem decode_opB (h : fieldOp w = 0xB) : decode w = .instr (.jpV0 (fieldNNN w)) := by
  simp [decode, h]

theorem decode_opC (h : fieldOp w = 0xC) : decode w = .instr (.rnd (regOf (fieldX w)) (fieldKK w)) := by
  simp [decode, h]

theorem decode_opD (h : fieldOp w = 0xD) : decode w = .instr (.drw (regOf (fieldX w)) (regOf (fieldY w)) (fieldN w)) := by
  simp [decode, h]

theorem decode_opE (h : fieldOp w = 0xE) : decode w = decodeFamilyE w := by
  simp [decode, h]

theorem decode_opF (h : fieldOp w = 0xF) : decode w = decodeFamilyF w := by
  simp [decode, h]

end Selected

/-! ### Selection by mask is selection by field (30_encoding.md R95, R97) -/

theorem and_formatXKK (a b a' b' : Nibble) (c c' : Byte) :
    formatXKK a b c &&& formatXKK a' b' c' = formatXKK (a &&& a') (b &&& b') (c &&& c') := by
  have h : ((a ++ b ++ c) &&& (a' ++ b' ++ c')) = (a &&& a') ++ (b &&& b') ++ (c &&& c') := by
    rw [BitVec.and_append, BitVec.and_append]
  exact h

theorem and_formatXYN (a b c d a' b' c' d' : Nibble) :
    formatXYN a b c d &&& formatXYN a' b' c' d' = formatXYN (a &&& a') (b &&& b') (c &&& c') (d &&& d') := by
  have h : ((a ++ b ++ c ++ d) &&& (a' ++ b' ++ c' ++ d')) = (a &&& a') ++ (b &&& b') ++ (c &&& c') ++ (d &&& d') := by
    rw [BitVec.and_append, BitVec.and_append, BitVec.and_append]
  exact h

/-- Mask F000: the primary selector alone. -/
theorem and_F000 (w : Word) : w &&& 0xF000#16 = formatXKK (fieldOp w) 0 0 := by
  conv => lhs; rw [← formatXKK_fields w, show (0xF000#16 : Word) = formatXKK 0xF 0 0 from rfl, and_formatXKK]
  congr 1
  · exact BitVec.and_allOnes (x := fieldOp w)
  · exact BitVec.and_zero
  · exact BitVec.and_zero

/-- Mask F0FF: the primary selector and the low byte. -/
theorem and_F0FF (w : Word) : w &&& 0xF0FF#16 = formatXKK (fieldOp w) 0 (fieldKK w) := by
  conv => lhs; rw [← formatXKK_fields w, show (0xF0FF#16 : Word) = formatXKK 0xF 0 0xFF from rfl, and_formatXKK]
  congr 1
  · exact BitVec.and_allOnes (x := fieldOp w)
  · exact BitVec.and_zero
  · exact BitVec.and_allOnes (x := fieldKK w)

/-- Mask F00F: the primary selector and the low nibble. -/
theorem and_F00F (w : Word) : w &&& 0xF00F#16 = formatXYN (fieldOp w) 0 0 (fieldN w) := by
  conv => lhs; rw [← formatXYN_fields w, show (0xF00F#16 : Word) = formatXYN 0xF 0 0 0xF from rfl, and_formatXYN]
  congr 1
  · exact BitVec.and_allOnes (x := fieldOp w)
  · exact BitVec.and_zero
  · exact BitVec.and_zero
  · exact BitVec.and_allOnes (x := fieldN w)

theorem formatXKK_inj {a b a' b' : Nibble} {c c' : Byte} :
    formatXKK a b c = formatXKK a' b' c' ↔ a = a' ∧ b = b' ∧ c = c' := by
  refine ⟨fun h => ⟨?_, ?_, ?_⟩, fun ⟨h1, h2, h3⟩ => by rw [h1, h2, h3]⟩
  · simpa using congrArg fieldOp h
  · simpa using congrArg fieldX h
  · simpa using congrArg fieldKK h

theorem formatXYN_inj {a b c d a' b' c' d' : Nibble} :
    formatXYN a b c d = formatXYN a' b' c' d' ↔ a = a' ∧ b = b' ∧ c = c' ∧ d = d' := by
  refine ⟨fun h => ⟨?_, ?_, ?_, ?_⟩, fun ⟨h1, h2, h3, h4⟩ => by rw [h1, h2, h3, h4]⟩
  · simpa using congrArg fieldOp h
  · simpa using congrArg fieldX h
  · simpa using congrArg fieldY h
  · simpa using congrArg fieldN h

end Sys2Proof
end

