-- ==== Sys2Proof/Laws/State.lean ====
section
/-! SUPPORT. One lemma per field per update, so that no proof unfolds a record update. -/

namespace Sys2Proof.Machine

/-! ### setReg -/

@[simp] theorem State.setReg_v (s : State) (x : Reg) (b : Byte) : (s.setReg x b).v = s.v.set x.val b := rfl
@[simp] theorem State.setReg_i (s : State) (x : Reg) (b : Byte) : (s.setReg x b).i = s.i := rfl
@[simp] theorem State.setReg_pc (s : State) (x : Reg) (b : Byte) : (s.setReg x b).pc = s.pc := rfl
@[simp] theorem State.setReg_sp (s : State) (x : Reg) (b : Byte) : (s.setReg x b).sp = s.sp := rfl
@[simp] theorem State.setReg_stack (s : State) (x : Reg) (b : Byte) : (s.setReg x b).stack = s.stack := rfl
@[simp] theorem State.setReg_dt (s : State) (x : Reg) (b : Byte) : (s.setReg x b).dt = s.dt := rfl
@[simp] theorem State.setReg_st (s : State) (x : Reg) (b : Byte) : (s.setReg x b).st = s.st := rfl
@[simp] theorem State.setReg_mem (s : State) (x : Reg) (b : Byte) : (s.setReg x b).mem = s.mem := rfl
@[simp] theorem State.setReg_fb (s : State) (x : Reg) (b : Byte) : (s.setReg x b).fb = s.fb := rfl
@[simp] theorem State.setReg_keys (s : State) (x : Reg) (b : Byte) : (s.setReg x b).keys = s.keys := rfl
@[simp] theorem State.setReg_report (s : State) (x : Reg) (b : Byte) : (s.setReg x b).report = s.report := rfl
@[simp] theorem State.setReg_tone (s : State) (x : Reg) (b : Byte) : (s.setReg x b).tone = s.tone := rfl
@[simp] theorem State.setReg_toneLog (s : State) (x : Reg) (b : Byte) : (s.setReg x b).toneLog = s.toneLog := rfl
@[simp] theorem State.setReg_params (s : State) (x : Reg) (b : Byte) : (s.setReg x b).params = s.params := rfl
@[simp] theorem State.setReg_rndIn (s : State) (x : Reg) (b : Byte) : (s.setReg x b).rndIn = s.rndIn := rfl
@[simp] theorem State.setReg_rndCount (s : State) (x : Reg) (b : Byte) : (s.setReg x b).rndCount = s.rndCount := rfl
@[simp] theorem State.setReg_driver (s : State) (x : Reg) (b : Byte) : (s.setReg x b).driver = s.driver := rfl

/-! ### setRegAndFlag -/

@[simp] theorem State.setRegAndFlag_v (s : State) (x : Reg) (b : Byte) (f : Bool) : (s.setRegAndFlag x b f).v = (s.v.set x.val b).set flagReg.val (flagByte f) := rfl
@[simp] theorem State.setRegAndFlag_i (s : State) (x : Reg) (b : Byte) (f : Bool) : (s.setRegAndFlag x b f).i = s.i := rfl
@[simp] theorem State.setRegAndFlag_pc (s : State) (x : Reg) (b : Byte) (f : Bool) : (s.setRegAndFlag x b f).pc = s.pc := rfl
@[simp] theorem State.setRegAndFlag_sp (s : State) (x : Reg) (b : Byte) (f : Bool) : (s.setRegAndFlag x b f).sp = s.sp := rfl
@[simp] theorem State.setRegAndFlag_stack (s : State) (x : Reg) (b : Byte) (f : Bool) : (s.setRegAndFlag x b f).stack = s.stack := rfl
@[simp] theorem State.setRegAndFlag_dt (s : State) (x : Reg) (b : Byte) (f : Bool) : (s.setRegAndFlag x b f).dt = s.dt := rfl
@[simp] theorem State.setRegAndFlag_st (s : State) (x : Reg) (b : Byte) (f : Bool) : (s.setRegAndFlag x b f).st = s.st := rfl
@[simp] theorem State.setRegAndFlag_mem (s : State) (x : Reg) (b : Byte) (f : Bool) : (s.setRegAndFlag x b f).mem = s.mem := rfl
@[simp] theorem State.setRegAndFlag_fb (s : State) (x : Reg) (b : Byte) (f : Bool) : (s.setRegAndFlag x b f).fb = s.fb := rfl
@[simp] theorem State.setRegAndFlag_keys (s : State) (x : Reg) (b : Byte) (f : Bool) : (s.setRegAndFlag x b f).keys = s.keys := rfl
@[simp] theorem State.setRegAndFlag_report (s : State) (x : Reg) (b : Byte) (f : Bool) : (s.setRegAndFlag x b f).report = s.report := rfl
@[simp] theorem State.setRegAndFlag_tone (s : State) (x : Reg) (b : Byte) (f : Bool) : (s.setRegAndFlag x b f).tone = s.tone := rfl
@[simp] theorem State.setRegAndFlag_toneLog (s : State) (x : Reg) (b : Byte) (f : Bool) : (s.setRegAndFlag x b f).toneLog = s.toneLog := rfl
@[simp] theorem State.setRegAndFlag_params (s : State) (x : Reg) (b : Byte) (f : Bool) : (s.setRegAndFlag x b f).params = s.params := rfl
@[simp] theorem State.setRegAndFlag_rndIn (s : State) (x : Reg) (b : Byte) (f : Bool) : (s.setRegAndFlag x b f).rndIn = s.rndIn := rfl
@[simp] theorem State.setRegAndFlag_rndCount (s : State) (x : Reg) (b : Byte) (f : Bool) : (s.setRegAndFlag x b f).rndCount = s.rndCount := rfl
@[simp] theorem State.setRegAndFlag_driver (s : State) (x : Reg) (b : Byte) (f : Bool) : (s.setRegAndFlag x b f).driver = s.driver := rfl

/-! ### loadRegs -/

@[simp] theorem State.loadRegs_i (s : State) (bytes : List Byte) : (s.loadRegs bytes).i = s.i := rfl
@[simp] theorem State.loadRegs_pc (s : State) (bytes : List Byte) : (s.loadRegs bytes).pc = s.pc := rfl
@[simp] theorem State.loadRegs_sp (s : State) (bytes : List Byte) : (s.loadRegs bytes).sp = s.sp := rfl
@[simp] theorem State.loadRegs_stack (s : State) (bytes : List Byte) : (s.loadRegs bytes).stack = s.stack := rfl
@[simp] theorem State.loadRegs_dt (s : State) (bytes : List Byte) : (s.loadRegs bytes).dt = s.dt := rfl
@[simp] theorem State.loadRegs_st (s : State) (bytes : List Byte) : (s.loadRegs bytes).st = s.st := rfl
@[simp] theorem State.loadRegs_mem (s : State) (bytes : List Byte) : (s.loadRegs bytes).mem = s.mem := rfl
@[simp] theorem State.loadRegs_fb (s : State) (bytes : List Byte) : (s.loadRegs bytes).fb = s.fb := rfl
@[simp] theorem State.loadRegs_keys (s : State) (bytes : List Byte) : (s.loadRegs bytes).keys = s.keys := rfl
@[simp] theorem State.loadRegs_report (s : State) (bytes : List Byte) : (s.loadRegs bytes).report = s.report := rfl
@[simp] theorem State.loadRegs_tone (s : State) (bytes : List Byte) : (s.loadRegs bytes).tone = s.tone := rfl
@[simp] theorem State.loadRegs_toneLog (s : State) (bytes : List Byte) : (s.loadRegs bytes).toneLog = s.toneLog := rfl
@[simp] theorem State.loadRegs_params (s : State) (bytes : List Byte) : (s.loadRegs bytes).params = s.params := rfl
@[simp] theorem State.loadRegs_rndIn (s : State) (bytes : List Byte) : (s.loadRegs bytes).rndIn = s.rndIn := rfl
@[simp] theorem State.loadRegs_rndCount (s : State) (bytes : List Byte) : (s.loadRegs bytes).rndCount = s.rndCount := rfl
@[simp] theorem State.loadRegs_driver (s : State) (bytes : List Byte) : (s.loadRegs bytes).driver = s.driver := rfl

/-! ### setI -/

@[simp] theorem State.setI_v (s : State) (a : Word) : (s.setI a).v = s.v := rfl
@[simp] theorem State.setI_i (s : State) (a : Word) : (s.setI a).i = a := rfl
@[simp] theorem State.setI_pc (s : State) (a : Word) : (s.setI a).pc = s.pc := rfl
@[simp] theorem State.setI_sp (s : State) (a : Word) : (s.setI a).sp = s.sp := rfl
@[simp] theorem State.setI_stack (s : State) (a : Word) : (s.setI a).stack = s.stack := rfl
@[simp] theorem State.setI_dt (s : State) (a : Word) : (s.setI a).dt = s.dt := rfl
@[simp] theorem State.setI_st (s : State) (a : Word) : (s.setI a).st = s.st := rfl
@[simp] theorem State.setI_mem (s : State) (a : Word) : (s.setI a).mem = s.mem := rfl
@[simp] theorem State.setI_fb (s : State) (a : Word) : (s.setI a).fb = s.fb := rfl
@[simp] theorem State.setI_keys (s : State) (a : Word) : (s.setI a).keys = s.keys := rfl
@[simp] theorem State.setI_report (s : State) (a : Word) : (s.setI a).report = s.report := rfl
@[simp] theorem State.setI_tone (s : State) (a : Word) : (s.setI a).tone = s.tone := rfl
@[simp] theorem State.setI_toneLog (s : State) (a : Word) : (s.setI a).toneLog = s.toneLog := rfl
@[simp] theorem State.setI_params (s : State) (a : Word) : (s.setI a).params = s.params := rfl
@[simp] theorem State.setI_rndIn (s : State) (a : Word) : (s.setI a).rndIn = s.rndIn := rfl
@[simp] theorem State.setI_rndCount (s : State) (a : Word) : (s.setI a).rndCount = s.rndCount := rfl
@[simp] theorem State.setI_driver (s : State) (a : Word) : (s.setI a).driver = s.driver := rfl

/-! ### setDT -/

@[simp] theorem State.setDT_v (s : State) (b : Byte) : (s.setDT b).v = s.v := rfl
@[simp] theorem State.setDT_i (s : State) (b : Byte) : (s.setDT b).i = s.i := rfl
@[simp] theorem State.setDT_pc (s : State) (b : Byte) : (s.setDT b).pc = s.pc := rfl
@[simp] theorem State.setDT_sp (s : State) (b : Byte) : (s.setDT b).sp = s.sp := rfl
@[simp] theorem State.setDT_stack (s : State) (b : Byte) : (s.setDT b).stack = s.stack := rfl
@[simp] theorem State.setDT_dt (s : State) (b : Byte) : (s.setDT b).dt = b := rfl
@[simp] theorem State.setDT_st (s : State) (b : Byte) : (s.setDT b).st = s.st := rfl
@[simp] theorem State.setDT_mem (s : State) (b : Byte) : (s.setDT b).mem = s.mem := rfl
@[simp] theorem State.setDT_fb (s : State) (b : Byte) : (s.setDT b).fb = s.fb := rfl
@[simp] theorem State.setDT_keys (s : State) (b : Byte) : (s.setDT b).keys = s.keys := rfl
@[simp] theorem State.setDT_report (s : State) (b : Byte) : (s.setDT b).report = s.report := rfl
@[simp] theorem State.setDT_tone (s : State) (b : Byte) : (s.setDT b).tone = s.tone := rfl
@[simp] theorem State.setDT_toneLog (s : State) (b : Byte) : (s.setDT b).toneLog = s.toneLog := rfl
@[simp] theorem State.setDT_params (s : State) (b : Byte) : (s.setDT b).params = s.params := rfl
@[simp] theorem State.setDT_rndIn (s : State) (b : Byte) : (s.setDT b).rndIn = s.rndIn := rfl
@[simp] theorem State.setDT_rndCount (s : State) (b : Byte) : (s.setDT b).rndCount = s.rndCount := rfl
@[simp] theorem State.setDT_driver (s : State) (b : Byte) : (s.setDT b).driver = s.driver := rfl

/-! ### setST -/

@[simp] theorem State.setST_v (s : State) (b : Byte) : (s.setST b).v = s.v := rfl
@[simp] theorem State.setST_i (s : State) (b : Byte) : (s.setST b).i = s.i := rfl
@[simp] theorem State.setST_pc (s : State) (b : Byte) : (s.setST b).pc = s.pc := rfl
@[simp] theorem State.setST_sp (s : State) (b : Byte) : (s.setST b).sp = s.sp := rfl
@[simp] theorem State.setST_stack (s : State) (b : Byte) : (s.setST b).stack = s.stack := rfl
@[simp] theorem State.setST_dt (s : State) (b : Byte) : (s.setST b).dt = s.dt := rfl
@[simp] theorem State.setST_st (s : State) (b : Byte) : (s.setST b).st = b := rfl
@[simp] theorem State.setST_mem (s : State) (b : Byte) : (s.setST b).mem = s.mem := rfl
@[simp] theorem State.setST_fb (s : State) (b : Byte) : (s.setST b).fb = s.fb := rfl
@[simp] theorem State.setST_keys (s : State) (b : Byte) : (s.setST b).keys = s.keys := rfl
@[simp] theorem State.setST_report (s : State) (b : Byte) : (s.setST b).report = s.report := rfl
@[simp] theorem State.setST_tone (s : State) (b : Byte) : (s.setST b).tone = s.tone := rfl
@[simp] theorem State.setST_toneLog (s : State) (b : Byte) : (s.setST b).toneLog = s.toneLog := rfl
@[simp] theorem State.setST_params (s : State) (b : Byte) : (s.setST b).params = s.params := rfl
@[simp] theorem State.setST_rndIn (s : State) (b : Byte) : (s.setST b).rndIn = s.rndIn := rfl
@[simp] theorem State.setST_rndCount (s : State) (b : Byte) : (s.setST b).rndCount = s.rndCount := rfl
@[simp] theorem State.setST_driver (s : State) (b : Byte) : (s.setST b).driver = s.driver := rfl

/-! ### advance -/

@[simp] theorem State.advance_v (s : State) : s.advance.v = s.v := rfl
@[simp] theorem State.advance_i (s : State) : s.advance.i = s.i := rfl
@[simp] theorem State.advance_pc (s : State) : s.advance.pc = s.pc + 2 := rfl
@[simp] theorem State.advance_sp (s : State) : s.advance.sp = s.sp := rfl
@[simp] theorem State.advance_stack (s : State) : s.advance.stack = s.stack := rfl
@[simp] theorem State.advance_dt (s : State) : s.advance.dt = s.dt := rfl
@[simp] theorem State.advance_st (s : State) : s.advance.st = s.st := rfl
@[simp] theorem State.advance_mem (s : State) : s.advance.mem = s.mem := rfl
@[simp] theorem State.advance_fb (s : State) : s.advance.fb = s.fb := rfl
@[simp] theorem State.advance_keys (s : State) : s.advance.keys = s.keys := rfl
@[simp] theorem State.advance_report (s : State) : s.advance.report = s.report := rfl
@[simp] theorem State.advance_tone (s : State) : s.advance.tone = s.tone := rfl
@[simp] theorem State.advance_toneLog (s : State) : s.advance.toneLog = s.toneLog := rfl
@[simp] theorem State.advance_params (s : State) : s.advance.params = s.params := rfl
@[simp] theorem State.advance_rndIn (s : State) : s.advance.rndIn = s.rndIn := rfl
@[simp] theorem State.advance_rndCount (s : State) : s.advance.rndCount = s.rndCount := rfl
@[simp] theorem State.advance_driver (s : State) : s.advance.driver = s.driver := rfl

/-! ### advanceSkipping -/

@[simp] theorem State.advanceSkipping_v (s : State) (c : Bool) : (s.advanceSkipping c).v = s.v := rfl
@[simp] theorem State.advanceSkipping_i (s : State) (c : Bool) : (s.advanceSkipping c).i = s.i := rfl
@[simp] theorem State.advanceSkipping_pc (s : State) (c : Bool) : (s.advanceSkipping c).pc = if c then s.pc + 4 else s.pc + 2 := rfl
@[simp] theorem State.advanceSkipping_sp (s : State) (c : Bool) : (s.advanceSkipping c).sp = s.sp := rfl
@[simp] theorem State.advanceSkipping_stack (s : State) (c : Bool) : (s.advanceSkipping c).stack = s.stack := rfl
@[simp] theorem State.advanceSkipping_dt (s : State) (c : Bool) : (s.advanceSkipping c).dt = s.dt := rfl
@[simp] theorem State.advanceSkipping_st (s : State) (c : Bool) : (s.advanceSkipping c).st = s.st := rfl
@[simp] theorem State.advanceSkipping_mem (s : State) (c : Bool) : (s.advanceSkipping c).mem = s.mem := rfl
@[simp] theorem State.advanceSkipping_fb (s : State) (c : Bool) : (s.advanceSkipping c).fb = s.fb := rfl
@[simp] theorem State.advanceSkipping_keys (s : State) (c : Bool) : (s.advanceSkipping c).keys = s.keys := rfl
@[simp] theorem State.advanceSkipping_report (s : State) (c : Bool) : (s.advanceSkipping c).report = s.report := rfl
@[simp] theorem State.advanceSkipping_tone (s : State) (c : Bool) : (s.advanceSkipping c).tone = s.tone := rfl
@[simp] theorem State.advanceSkipping_toneLog (s : State) (c : Bool) : (s.advanceSkipping c).toneLog = s.toneLog := rfl
@[simp] theorem State.advanceSkipping_params (s : State) (c : Bool) : (s.advanceSkipping c).params = s.params := rfl
@[simp] theorem State.advanceSkipping_rndIn (s : State) (c : Bool) : (s.advanceSkipping c).rndIn = s.rndIn := rfl
@[simp] theorem State.advanceSkipping_rndCount (s : State) (c : Bool) : (s.advanceSkipping c).rndCount = s.rndCount := rfl
@[simp] theorem State.advanceSkipping_driver (s : State) (c : Bool) : (s.advanceSkipping c).driver = s.driver := rfl

/-! ### jump -/

@[simp] theorem State.jump_v (s : State) (a : Word) : (s.jump a).v = s.v := rfl
@[simp] theorem State.jump_i (s : State) (a : Word) : (s.jump a).i = s.i := rfl
@[simp] theorem State.jump_pc (s : State) (a : Word) : (s.jump a).pc = a := rfl
@[simp] theorem State.jump_sp (s : State) (a : Word) : (s.jump a).sp = s.sp := rfl
@[simp] theorem State.jump_stack (s : State) (a : Word) : (s.jump a).stack = s.stack := rfl
@[simp] theorem State.jump_dt (s : State) (a : Word) : (s.jump a).dt = s.dt := rfl
@[simp] theorem State.jump_st (s : State) (a : Word) : (s.jump a).st = s.st := rfl
@[simp] theorem State.jump_mem (s : State) (a : Word) : (s.jump a).mem = s.mem := rfl
@[simp] theorem State.jump_fb (s : State) (a : Word) : (s.jump a).fb = s.fb := rfl
@[simp] theorem State.jump_keys (s : State) (a : Word) : (s.jump a).keys = s.keys := rfl
@[simp] theorem State.jump_report (s : State) (a : Word) : (s.jump a).report = s.report := rfl
@[simp] theorem State.jump_tone (s : State) (a : Word) : (s.jump a).tone = s.tone := rfl
@[simp] theorem State.jump_toneLog (s : State) (a : Word) : (s.jump a).toneLog = s.toneLog := rfl
@[simp] theorem State.jump_params (s : State) (a : Word) : (s.jump a).params = s.params := rfl
@[simp] theorem State.jump_rndIn (s : State) (a : Word) : (s.jump a).rndIn = s.rndIn := rfl
@[simp] theorem State.jump_rndCount (s : State) (a : Word) : (s.jump a).rndCount = s.rndCount := rfl
@[simp] theorem State.jump_driver (s : State) (a : Word) : (s.jump a).driver = s.driver := rfl

/-! ### push -/

@[simp] theorem State.push_v (s : State) (a : Word) (h : s.sp.val < 16) : (s.push a h).v = s.v := rfl
@[simp] theorem State.push_i (s : State) (a : Word) (h : s.sp.val < 16) : (s.push a h).i = s.i := rfl
@[simp] theorem State.push_pc (s : State) (a : Word) (h : s.sp.val < 16) : (s.push a h).pc = s.pc := rfl
@[simp] theorem State.push_sp (s : State) (a : Word) (h : s.sp.val < 16) : (s.push a h).sp = ⟨s.sp.val + 1, by omega⟩ := rfl
@[simp] theorem State.push_stack (s : State) (a : Word) (h : s.sp.val < 16) : (s.push a h).stack = s.stack.set s.sp.val a := rfl
@[simp] theorem State.push_dt (s : State) (a : Word) (h : s.sp.val < 16) : (s.push a h).dt = s.dt := rfl
@[simp] theorem State.push_st (s : State) (a : Word) (h : s.sp.val < 16) : (s.push a h).st = s.st := rfl
@[simp] theorem State.push_mem (s : State) (a : Word) (h : s.sp.val < 16) : (s.push a h).mem = s.mem := rfl
@[simp] theorem State.push_fb (s : State) (a : Word) (h : s.sp.val < 16) : (s.push a h).fb = s.fb := rfl
@[simp] theorem State.push_keys (s : State) (a : Word) (h : s.sp.val < 16) : (s.push a h).keys = s.keys := rfl
@[simp] theorem State.push_report (s : State) (a : Word) (h : s.sp.val < 16) : (s.push a h).report = s.report := rfl
@[simp] theorem State.push_tone (s : State) (a : Word) (h : s.sp.val < 16) : (s.push a h).tone = s.tone := rfl
@[simp] theorem State.push_toneLog (s : State) (a : Word) (h : s.sp.val < 16) : (s.push a h).toneLog = s.toneLog := rfl
@[simp] theorem State.push_params (s : State) (a : Word) (h : s.sp.val < 16) : (s.push a h).params = s.params := rfl
@[simp] theorem State.push_rndIn (s : State) (a : Word) (h : s.sp.val < 16) : (s.push a h).rndIn = s.rndIn := rfl
@[simp] theorem State.push_rndCount (s : State) (a : Word) (h : s.sp.val < 16) : (s.push a h).rndCount = s.rndCount := rfl
@[simp] theorem State.push_driver (s : State) (a : Word) (h : s.sp.val < 16) : (s.push a h).driver = s.driver := rfl

/-! ### pop -/

@[simp] theorem State.pop_v (s : State) : s.pop.v = s.v := rfl
@[simp] theorem State.pop_i (s : State) : s.pop.i = s.i := rfl
@[simp] theorem State.pop_pc (s : State) : s.pop.pc = s.pc := rfl
@[simp] theorem State.pop_sp (s : State) : s.pop.sp = ⟨s.sp.val - 1, by omega⟩ := rfl
@[simp] theorem State.pop_stack (s : State) : s.pop.stack = s.stack := rfl
@[simp] theorem State.pop_dt (s : State) : s.pop.dt = s.dt := rfl
@[simp] theorem State.pop_st (s : State) : s.pop.st = s.st := rfl
@[simp] theorem State.pop_mem (s : State) : s.pop.mem = s.mem := rfl
@[simp] theorem State.pop_fb (s : State) : s.pop.fb = s.fb := rfl
@[simp] theorem State.pop_keys (s : State) : s.pop.keys = s.keys := rfl
@[simp] theorem State.pop_report (s : State) : s.pop.report = s.report := rfl
@[simp] theorem State.pop_tone (s : State) : s.pop.tone = s.tone := rfl
@[simp] theorem State.pop_toneLog (s : State) : s.pop.toneLog = s.toneLog := rfl
@[simp] theorem State.pop_params (s : State) : s.pop.params = s.params := rfl
@[simp] theorem State.pop_rndIn (s : State) : s.pop.rndIn = s.rndIn := rfl
@[simp] theorem State.pop_rndCount (s : State) : s.pop.rndCount = s.rndCount := rfl
@[simp] theorem State.pop_driver (s : State) : s.pop.driver = s.driver := rfl

/-! ### memWrite -/

@[simp] theorem State.memWrite_v (s : State) (a : Nat) (b : Byte) : (s.memWrite a b).v = s.v := rfl
@[simp] theorem State.memWrite_i (s : State) (a : Nat) (b : Byte) : (s.memWrite a b).i = s.i := rfl
@[simp] theorem State.memWrite_pc (s : State) (a : Nat) (b : Byte) : (s.memWrite a b).pc = s.pc := rfl
@[simp] theorem State.memWrite_sp (s : State) (a : Nat) (b : Byte) : (s.memWrite a b).sp = s.sp := rfl
@[simp] theorem State.memWrite_stack (s : State) (a : Nat) (b : Byte) : (s.memWrite a b).stack = s.stack := rfl
@[simp] theorem State.memWrite_dt (s : State) (a : Nat) (b : Byte) : (s.memWrite a b).dt = s.dt := rfl
@[simp] theorem State.memWrite_st (s : State) (a : Nat) (b : Byte) : (s.memWrite a b).st = s.st := rfl
@[simp] theorem State.memWrite_mem (s : State) (a : Nat) (b : Byte) : (s.memWrite a b).mem = Memory.write s.params s.mem (a % 4096) b := rfl
@[simp] theorem State.memWrite_fb (s : State) (a : Nat) (b : Byte) : (s.memWrite a b).fb = s.fb := rfl
@[simp] theorem State.memWrite_keys (s : State) (a : Nat) (b : Byte) : (s.memWrite a b).keys = s.keys := rfl
@[simp] theorem State.memWrite_report (s : State) (a : Nat) (b : Byte) : (s.memWrite a b).report = s.report := rfl
@[simp] theorem State.memWrite_tone (s : State) (a : Nat) (b : Byte) : (s.memWrite a b).tone = s.tone := rfl
@[simp] theorem State.memWrite_toneLog (s : State) (a : Nat) (b : Byte) : (s.memWrite a b).toneLog = s.toneLog := rfl
@[simp] theorem State.memWrite_params (s : State) (a : Nat) (b : Byte) : (s.memWrite a b).params = s.params := rfl
@[simp] theorem State.memWrite_rndIn (s : State) (a : Nat) (b : Byte) : (s.memWrite a b).rndIn = s.rndIn := rfl
@[simp] theorem State.memWrite_rndCount (s : State) (a : Nat) (b : Byte) : (s.memWrite a b).rndCount = s.rndCount := rfl
@[simp] theorem State.memWrite_driver (s : State) (a : Nat) (b : Byte) : (s.memWrite a b).driver = s.driver := rfl

/-! ### memWriteBytes -/

@[simp] theorem State.memWriteBytes_v (s : State) (a : Nat) (bytes : List Byte) : (s.memWriteBytes a bytes).v = s.v := rfl
@[simp] theorem State.memWriteBytes_i (s : State) (a : Nat) (bytes : List Byte) : (s.memWriteBytes a bytes).i = s.i := rfl
@[simp] theorem State.memWriteBytes_pc (s : State) (a : Nat) (bytes : List Byte) : (s.memWriteBytes a bytes).pc = s.pc := rfl
@[simp] theorem State.memWriteBytes_sp (s : State) (a : Nat) (bytes : List Byte) : (s.memWriteBytes a bytes).sp = s.sp := rfl
@[simp] theorem State.memWriteBytes_stack (s : State) (a : Nat) (bytes : List Byte) : (s.memWriteBytes a bytes).stack = s.stack := rfl
@[simp] theorem State.memWriteBytes_dt (s : State) (a : Nat) (bytes : List Byte) : (s.memWriteBytes a bytes).dt = s.dt := rfl
@[simp] theorem State.memWriteBytes_st (s : State) (a : Nat) (bytes : List Byte) : (s.memWriteBytes a bytes).st = s.st := rfl
@[simp] theorem State.memWriteBytes_mem (s : State) (a : Nat) (bytes : List Byte) : (s.memWriteBytes a bytes).mem = Memory.writeBytes s.params s.mem a bytes := rfl
@[simp] theorem State.memWriteBytes_fb (s : State) (a : Nat) (bytes : List Byte) : (s.memWriteBytes a bytes).fb = s.fb := rfl
@[simp] theorem State.memWriteBytes_keys (s : State) (a : Nat) (bytes : List Byte) : (s.memWriteBytes a bytes).keys = s.keys := rfl
@[simp] theorem State.memWriteBytes_report (s : State) (a : Nat) (bytes : List Byte) : (s.memWriteBytes a bytes).report = s.report := rfl
@[simp] theorem State.memWriteBytes_tone (s : State) (a : Nat) (bytes : List Byte) : (s.memWriteBytes a bytes).tone = s.tone := rfl
@[simp] theorem State.memWriteBytes_toneLog (s : State) (a : Nat) (bytes : List Byte) : (s.memWriteBytes a bytes).toneLog = s.toneLog := rfl
@[simp] theorem State.memWriteBytes_params (s : State) (a : Nat) (bytes : List Byte) : (s.memWriteBytes a bytes).params = s.params := rfl
@[simp] theorem State.memWriteBytes_rndIn (s : State) (a : Nat) (bytes : List Byte) : (s.memWriteBytes a bytes).rndIn = s.rndIn := rfl
@[simp] theorem State.memWriteBytes_rndCount (s : State) (a : Nat) (bytes : List Byte) : (s.memWriteBytes a bytes).rndCount = s.rndCount := rfl
@[simp] theorem State.memWriteBytes_driver (s : State) (a : Nat) (bytes : List Byte) : (s.memWriteBytes a bytes).driver = s.driver := rfl

/-! ### reportAndAdvance -/

@[simp] theorem State.reportAndAdvance_v (s : State) (k : Word → Word → Report) (w : Word) : (s.reportAndAdvance k w).v = s.v := rfl
@[simp] theorem State.reportAndAdvance_i (s : State) (k : Word → Word → Report) (w : Word) : (s.reportAndAdvance k w).i = s.i := rfl
@[simp] theorem State.reportAndAdvance_pc (s : State) (k : Word → Word → Report) (w : Word) : (s.reportAndAdvance k w).pc = s.pc + 2 := rfl
@[simp] theorem State.reportAndAdvance_sp (s : State) (k : Word → Word → Report) (w : Word) : (s.reportAndAdvance k w).sp = s.sp := rfl
@[simp] theorem State.reportAndAdvance_stack (s : State) (k : Word → Word → Report) (w : Word) : (s.reportAndAdvance k w).stack = s.stack := rfl
@[simp] theorem State.reportAndAdvance_dt (s : State) (k : Word → Word → Report) (w : Word) : (s.reportAndAdvance k w).dt = s.dt := rfl
@[simp] theorem State.reportAndAdvance_st (s : State) (k : Word → Word → Report) (w : Word) : (s.reportAndAdvance k w).st = s.st := rfl
@[simp] theorem State.reportAndAdvance_mem (s : State) (k : Word → Word → Report) (w : Word) : (s.reportAndAdvance k w).mem = s.mem := rfl
@[simp] theorem State.reportAndAdvance_fb (s : State) (k : Word → Word → Report) (w : Word) : (s.reportAndAdvance k w).fb = s.fb := rfl
@[simp] theorem State.reportAndAdvance_keys (s : State) (k : Word → Word → Report) (w : Word) : (s.reportAndAdvance k w).keys = s.keys := rfl
@[simp] theorem State.reportAndAdvance_report (s : State) (k : Word → Word → Report) (w : Word) : (s.reportAndAdvance k w).report = k s.pc w := rfl
@[simp] theorem State.reportAndAdvance_tone (s : State) (k : Word → Word → Report) (w : Word) : (s.reportAndAdvance k w).tone = s.tone := rfl
@[simp] theorem State.reportAndAdvance_toneLog (s : State) (k : Word → Word → Report) (w : Word) : (s.reportAndAdvance k w).toneLog = s.toneLog := rfl
@[simp] theorem State.reportAndAdvance_params (s : State) (k : Word → Word → Report) (w : Word) : (s.reportAndAdvance k w).params = s.params := rfl
@[simp] theorem State.reportAndAdvance_rndIn (s : State) (k : Word → Word → Report) (w : Word) : (s.reportAndAdvance k w).rndIn = s.rndIn := rfl
@[simp] theorem State.reportAndAdvance_rndCount (s : State) (k : Word → Word → Report) (w : Word) : (s.reportAndAdvance k w).rndCount = s.rndCount := rfl
@[simp] theorem State.reportAndAdvance_driver (s : State) (k : Word → Word → Report) (w : Word) : (s.reportAndAdvance k w).driver = s.driver := rfl

/-! ### drawSprite -/

@[simp] theorem State.drawSprite_v (s : State) (x0 y0 : Nat) (rows : List Byte) : (s.drawSprite x0 y0 rows).v = s.v.set flagReg.val (flagByte (Canvas.plotRows { fb := s.fb, hit := false } x0 y0 rows).hit) := rfl
@[simp] theorem State.drawSprite_i (s : State) (x0 y0 : Nat) (rows : List Byte) : (s.drawSprite x0 y0 rows).i = s.i := rfl
@[simp] theorem State.drawSprite_pc (s : State) (x0 y0 : Nat) (rows : List Byte) : (s.drawSprite x0 y0 rows).pc = s.pc := rfl
@[simp] theorem State.drawSprite_sp (s : State) (x0 y0 : Nat) (rows : List Byte) : (s.drawSprite x0 y0 rows).sp = s.sp := rfl
@[simp] theorem State.drawSprite_stack (s : State) (x0 y0 : Nat) (rows : List Byte) : (s.drawSprite x0 y0 rows).stack = s.stack := rfl
@[simp] theorem State.drawSprite_dt (s : State) (x0 y0 : Nat) (rows : List Byte) : (s.drawSprite x0 y0 rows).dt = s.dt := rfl
@[simp] theorem State.drawSprite_st (s : State) (x0 y0 : Nat) (rows : List Byte) : (s.drawSprite x0 y0 rows).st = s.st := rfl
@[simp] theorem State.drawSprite_mem (s : State) (x0 y0 : Nat) (rows : List Byte) : (s.drawSprite x0 y0 rows).mem = s.mem := rfl
@[simp] theorem State.drawSprite_fb (s : State) (x0 y0 : Nat) (rows : List Byte) : (s.drawSprite x0 y0 rows).fb = (Canvas.plotRows { fb := s.fb, hit := false } x0 y0 rows).fb := rfl
@[simp] theorem State.drawSprite_keys (s : State) (x0 y0 : Nat) (rows : List Byte) : (s.drawSprite x0 y0 rows).keys = s.keys := rfl
@[simp] theorem State.drawSprite_report (s : State) (x0 y0 : Nat) (rows : List Byte) : (s.drawSprite x0 y0 rows).report = s.report := rfl
@[simp] theorem State.drawSprite_tone (s : State) (x0 y0 : Nat) (rows : List Byte) : (s.drawSprite x0 y0 rows).tone = s.tone := rfl
@[simp] theorem State.drawSprite_toneLog (s : State) (x0 y0 : Nat) (rows : List Byte) : (s.drawSprite x0 y0 rows).toneLog = s.toneLog := rfl
@[simp] theorem State.drawSprite_params (s : State) (x0 y0 : Nat) (rows : List Byte) : (s.drawSprite x0 y0 rows).params = s.params := rfl
@[simp] theorem State.drawSprite_rndIn (s : State) (x0 y0 : Nat) (rows : List Byte) : (s.drawSprite x0 y0 rows).rndIn = s.rndIn := rfl
@[simp] theorem State.drawSprite_rndCount (s : State) (x0 y0 : Nat) (rows : List Byte) : (s.drawSprite x0 y0 rows).rndCount = s.rndCount := rfl
@[simp] theorem State.drawSprite_driver (s : State) (x0 y0 : Nat) (rows : List Byte) : (s.drawSprite x0 y0 rows).driver = s.driver := rfl

/-! ### clearDisplay -/

@[simp] theorem State.clearDisplay_v (s : State) : s.clearDisplay.v = s.v := rfl
@[simp] theorem State.clearDisplay_i (s : State) : s.clearDisplay.i = s.i := rfl
@[simp] theorem State.clearDisplay_pc (s : State) : s.clearDisplay.pc = s.pc := rfl
@[simp] theorem State.clearDisplay_sp (s : State) : s.clearDisplay.sp = s.sp := rfl
@[simp] theorem State.clearDisplay_stack (s : State) : s.clearDisplay.stack = s.stack := rfl
@[simp] theorem State.clearDisplay_dt (s : State) : s.clearDisplay.dt = s.dt := rfl
@[simp] theorem State.clearDisplay_st (s : State) : s.clearDisplay.st = s.st := rfl
@[simp] theorem State.clearDisplay_mem (s : State) : s.clearDisplay.mem = s.mem := rfl
@[simp] theorem State.clearDisplay_fb (s : State) : s.clearDisplay.fb = Vector.replicate 2048 false := rfl
@[simp] theorem State.clearDisplay_keys (s : State) : s.clearDisplay.keys = s.keys := rfl
@[simp] theorem State.clearDisplay_report (s : State) : s.clearDisplay.report = s.report := rfl
@[simp] theorem State.clearDisplay_tone (s : State) : s.clearDisplay.tone = s.tone := rfl
@[simp] theorem State.clearDisplay_toneLog (s : State) : s.clearDisplay.toneLog = s.toneLog := rfl
@[simp] theorem State.clearDisplay_params (s : State) : s.clearDisplay.params = s.params := rfl
@[simp] theorem State.clearDisplay_rndIn (s : State) : s.clearDisplay.rndIn = s.rndIn := rfl
@[simp] theorem State.clearDisplay_rndCount (s : State) : s.clearDisplay.rndCount = s.rndCount := rfl
@[simp] theorem State.clearDisplay_driver (s : State) : s.clearDisplay.driver = s.driver := rfl

/-! ### nextRandom -/

@[simp] theorem State.nextRandom_v (s : State) : s.nextRandom.v = s.v := rfl
@[simp] theorem State.nextRandom_i (s : State) : s.nextRandom.i = s.i := rfl
@[simp] theorem State.nextRandom_pc (s : State) : s.nextRandom.pc = s.pc := rfl
@[simp] theorem State.nextRandom_sp (s : State) : s.nextRandom.sp = s.sp := rfl
@[simp] theorem State.nextRandom_stack (s : State) : s.nextRandom.stack = s.stack := rfl
@[simp] theorem State.nextRandom_dt (s : State) : s.nextRandom.dt = s.dt := rfl
@[simp] theorem State.nextRandom_st (s : State) : s.nextRandom.st = s.st := rfl
@[simp] theorem State.nextRandom_mem (s : State) : s.nextRandom.mem = s.mem := rfl
@[simp] theorem State.nextRandom_fb (s : State) : s.nextRandom.fb = s.fb := rfl
@[simp] theorem State.nextRandom_keys (s : State) : s.nextRandom.keys = s.keys := rfl
@[simp] theorem State.nextRandom_report (s : State) : s.nextRandom.report = s.report := rfl
@[simp] theorem State.nextRandom_tone (s : State) : s.nextRandom.tone = s.tone := rfl
@[simp] theorem State.nextRandom_toneLog (s : State) : s.nextRandom.toneLog = s.toneLog := rfl
@[simp] theorem State.nextRandom_params (s : State) : s.nextRandom.params = s.params := rfl
@[simp] theorem State.nextRandom_rndIn (s : State) : s.nextRandom.rndIn = s.rndIn.tail := rfl
@[simp] theorem State.nextRandom_rndCount (s : State) : s.nextRandom.rndCount = s.rndCount + 1 := rfl
@[simp] theorem State.nextRandom_driver (s : State) : s.nextRandom.driver = s.driver := rfl

/-! ### beginCycle -/

@[simp] theorem State.beginCycle_v (s : State) : s.beginCycle.v = s.v := rfl
@[simp] theorem State.beginCycle_i (s : State) : s.beginCycle.i = s.i := rfl
@[simp] theorem State.beginCycle_pc (s : State) : s.beginCycle.pc = s.pc := rfl
@[simp] theorem State.beginCycle_sp (s : State) : s.beginCycle.sp = s.sp := rfl
@[simp] theorem State.beginCycle_stack (s : State) : s.beginCycle.stack = s.stack := rfl
@[simp] theorem State.beginCycle_dt (s : State) : s.beginCycle.dt = s.dt := rfl
@[simp] theorem State.beginCycle_st (s : State) : s.beginCycle.st = s.st := rfl
@[simp] theorem State.beginCycle_mem (s : State) : s.beginCycle.mem = s.mem := rfl
@[simp] theorem State.beginCycle_fb (s : State) : s.beginCycle.fb = s.fb := rfl
@[simp] theorem State.beginCycle_keys (s : State) : s.beginCycle.keys = s.keys := rfl
@[simp] theorem State.beginCycle_report (s : State) : s.beginCycle.report = .none := rfl
@[simp] theorem State.beginCycle_tone (s : State) : s.beginCycle.tone = false := rfl
@[simp] theorem State.beginCycle_toneLog (s : State) : s.beginCycle.toneLog = [] := rfl
@[simp] theorem State.beginCycle_params (s : State) : s.beginCycle.params = s.params := rfl
@[simp] theorem State.beginCycle_rndIn (s : State) : s.beginCycle.rndIn = s.rndIn := rfl
@[simp] theorem State.beginCycle_rndCount (s : State) : s.beginCycle.rndCount = s.rndCount := rfl
@[simp] theorem State.beginCycle_driver (s : State) : s.beginCycle.driver = s.driver := rfl

/-! ### tickTimers -/

@[simp] theorem State.tickTimers_v (s : State) : s.tickTimers.v = s.v := rfl
@[simp] theorem State.tickTimers_i (s : State) : s.tickTimers.i = s.i := rfl
@[simp] theorem State.tickTimers_pc (s : State) : s.tickTimers.pc = s.pc := rfl
@[simp] theorem State.tickTimers_sp (s : State) : s.tickTimers.sp = s.sp := rfl
@[simp] theorem State.tickTimers_stack (s : State) : s.tickTimers.stack = s.stack := rfl
@[simp] theorem State.tickTimers_dt (s : State) : s.tickTimers.dt = tickDown s.dt := rfl
@[simp] theorem State.tickTimers_st (s : State) : s.tickTimers.st = tickDown s.st := rfl
@[simp] theorem State.tickTimers_mem (s : State) : s.tickTimers.mem = s.mem := rfl
@[simp] theorem State.tickTimers_fb (s : State) : s.tickTimers.fb = s.fb := rfl
@[simp] theorem State.tickTimers_keys (s : State) : s.tickTimers.keys = s.keys := rfl
@[simp] theorem State.tickTimers_report (s : State) : s.tickTimers.report = s.report := rfl
@[simp] theorem State.tickTimers_tone (s : State) : s.tickTimers.tone = toneDue s.st := rfl
@[simp] theorem State.tickTimers_toneLog (s : State) : s.tickTimers.toneLog = s.toneLog ++ [toneDue s.st] := rfl
@[simp] theorem State.tickTimers_params (s : State) : s.tickTimers.params = s.params := rfl
@[simp] theorem State.tickTimers_rndIn (s : State) : s.tickTimers.rndIn = s.rndIn := rfl
@[simp] theorem State.tickTimers_rndCount (s : State) : s.tickTimers.rndCount = s.rndCount := rfl
@[simp] theorem State.tickTimers_driver (s : State) : s.tickTimers.driver = s.driver := rfl

end Sys2Proof.Machine
end

