-- ==== Sys2Proof/Laws/Registers.lean ====
section
/-! SUPPORT. What a register reads as after each register update. -/

namespace Sys2Proof.Machine

theorem State.reg_congr {s t : State} (h : t.v = s.v) (r : Reg) : t.reg r = s.reg r := by
  simp only [State.reg, h]

@[simp] theorem State.reg_setReg (s : State) (x r : Reg) (b : Byte) :
    (s.setReg x b).reg r = if r = x then b else s.reg r := by
  simp only [State.reg, State.setReg_v, Vector.getElem_set, Fin.ext_iff]
  split <;> split <;> first | rfl | omega

/-- Result first, flag last: VF holds the flag even when it is the destination (10_state.md R29 (b)). -/
@[simp] theorem State.reg_setRegAndFlag (s : State) (x r : Reg) (b : Byte) (f : Bool) :
    (s.setRegAndFlag x b f).reg r = if r = flagReg then flagByte f else if r = x then b else s.reg r := by
  simp [State.setRegAndFlag]

@[simp] theorem State.reg_loadRegs (s : State) (bytes : List Byte) (r : Reg) :
    (s.loadRegs bytes).reg r = (bytes[r.val]?).getD (s.reg r) := by
  simp [State.reg, State.loadRegs]

@[simp] theorem State.reg_drawSprite (s : State) (x0 y0 : Nat) (rows : List Byte) (r : Reg) :
    (s.drawSprite x0 y0 rows).reg r =
      if r = flagReg then flagByte (Canvas.plotRows { fb := s.fb, hit := false } x0 y0 rows).hit else s.reg r := by
  simp only [State.reg, State.drawSprite_v, Vector.getElem_set, Fin.ext_iff]
  split <;> split <;> first | rfl | omega

@[simp] theorem State.reg_setI (s : State) (a : Word) (r : Reg) : (s.setI a).reg r = s.reg r := rfl
@[simp] theorem State.reg_setDT (s : State) (b : Byte) (r : Reg) : (s.setDT b).reg r = s.reg r := rfl
@[simp] theorem State.reg_setST (s : State) (b : Byte) (r : Reg) : (s.setST b).reg r = s.reg r := rfl
@[simp] theorem State.reg_advance (s : State) (r : Reg) : s.advance.reg r = s.reg r := rfl
@[simp] theorem State.reg_advanceSkipping (s : State) (c : Bool) (r : Reg) : (s.advanceSkipping c).reg r = s.reg r := rfl
@[simp] theorem State.reg_jump (s : State) (a : Word) (r : Reg) : (s.jump a).reg r = s.reg r := rfl
@[simp] theorem State.reg_push (s : State) (a : Word) (h : s.sp.val < 16) (r : Reg) : (s.push a h).reg r = s.reg r := rfl
@[simp] theorem State.reg_pop (s : State) (r : Reg) : s.pop.reg r = s.reg r := rfl
@[simp] theorem State.reg_memWrite (s : State) (a : Nat) (b : Byte) (r : Reg) : (s.memWrite a b).reg r = s.reg r := rfl
@[simp] theorem State.reg_memWriteBytes (s : State) (a : Nat) (bytes : List Byte) (r : Reg) : (s.memWriteBytes a bytes).reg r = s.reg r := rfl
@[simp] theorem State.reg_reportAndAdvance (s : State) (k : Word → Word → Report) (w : Word) (r : Reg) : (s.reportAndAdvance k w).reg r = s.reg r := rfl
@[simp] theorem State.reg_clearDisplay (s : State) (r : Reg) : s.clearDisplay.reg r = s.reg r := rfl
@[simp] theorem State.reg_nextRandom (s : State) (r : Reg) : s.nextRandom.reg r = s.reg r := rfl
@[simp] theorem State.reg_beginCycle (s : State) (r : Reg) : s.beginCycle.reg r = s.reg r := rfl
@[simp] theorem State.reg_tickTimers (s : State) (r : Reg) : s.tickTimers.reg r = s.reg r := rfl

theorem State.mem_regRange {x r : Reg} : r ∈ regRange x ↔ r.val ≤ x.val := by
  simp [regRange]

end Sys2Proof.Machine
end

