-- ==== Sys2Proof/Laws/Display.lean ====
section
/-! SUPPORT. What plotting one pixel, one sprite row and a whole sprite does to every cell of the screen and to the collision
flag (42_index_jump_random_draw.md R163, R164). -/

namespace Sys2Proof.Machine

/-- The cell of column `cx` and row `cy` on a canvas. -/
def Canvas.pixel (cv : Canvas) (cx : Fin 64) (cy : Fin 32) : Bool := cv.fb[cy.val * 64 + cx.val]

/-- Every cell of the framebuffer is the cell of one column and one row (10_state.md R31). -/
theorem pixel_index {i : Nat} (hi : i < 2048) : ∃ (cx : Fin 64) (cy : Fin 32), i = cy.val * 64 + cx.val :=
  ⟨⟨i % 64, Nat.mod_lt _ (by norm_num)⟩, ⟨i / 64, by omega⟩, by simp only; omega⟩

theorem pixel_ext {f g : Vector Bool 2048}
    (h : ∀ (cx : Fin 64) (cy : Fin 32), f[cy.val * 64 + cx.val] = g[cy.val * 64 + cx.val]) : f = g := by
  ext i hi
  obtain ⟨cx, cy, rfl⟩ := pixel_index hi
  exact h cx cy

/-- One plotted pixel flips its own cell, if it is on the screen, and no other. -/
theorem Canvas.pixel_plot (cv : Canvas) (x y : Nat) (cx : Fin 64) (cy : Fin 32) :
    (cv.plot x y).pixel cx cy = if cx.val = x ∧ cy.val = y then !cv.pixel cx cy else cv.pixel cx cy := by
  unfold Canvas.plot
  by_cases h : x < 64 ∧ y < 32
  · rw [dif_pos h]
    simp only [Canvas.pixel, Vector.getElem_set]
    by_cases hc : cx.val = x ∧ cy.val = y
    · obtain ⟨rfl, rfl⟩ := hc; simp
    · have hne : ¬ y * 64 + x = cy.val * 64 + cx.val := fun e => hc (by omega)
      simp [hc, hne]
  · rw [dif_neg h, if_neg]
    rintro ⟨rfl, rfl⟩
    exact h ⟨cx.isLt, cy.isLt⟩

/-- One plotted pixel records a collision exactly when it is on the screen and its cell is set. -/
theorem Canvas.hit_plot (cv : Canvas) (x y : Nat) :
    (cv.plot x y).hit = true ↔
      cv.hit = true ∨ ∃ (cx : Fin 64) (cy : Fin 32), cx.val = x ∧ cy.val = y ∧ cv.pixel cx cy = true := by
  unfold Canvas.plot
  by_cases h : x < 64 ∧ y < 32
  · rw [dif_pos h, Bool.or_eq_true]
    refine or_congr_right ⟨fun hp => ⟨⟨x, h.1⟩, ⟨y, h.2⟩, rfl, rfl, hp⟩, ?_⟩
    rintro ⟨cx, cy, rfl, rfl, hp⟩
    exact hp
  · rw [dif_neg h]
    refine ⟨Or.inl, ?_⟩
    rintro (hh | ⟨cx, cy, rfl, rfl, -⟩)
    · exact hh
    · exact absurd ⟨cx.isLt, cy.isLt⟩ h

/-- Columns of a row plotted from a list without repeats: a cell is flipped exactly when a set bit lands on it. -/
theorem Canvas.pixel_plotColumns (cs : List Nat) (hcs : cs.Nodup) (cv : Canvas) (x0 y : Nat) (b : Byte)
    (cx : Fin 64) (cy : Fin 32) :
    (cs.foldl (fun cv c => if spriteBit b c then cv.plot (x0 + c) y else cv) cv).pixel cx cy =
      (cv.pixel cx cy ^^ decide (cy.val = y ∧ ∃ c ∈ cs, cx.val = x0 + c ∧ spriteBit b c = true)) := by
  induction cs generalizing cv with
  | nil => simp
  | cons c rest ih =>
    obtain ⟨hc, hrest⟩ := List.nodup_cons.mp hcs
    have hother : cx.val = x0 + c → ∀ d ∈ rest, cx.val ≠ x0 + d := fun e d hd e' =>
      hc (by have : d = c := by omega
             exact this ▸ hd)
    rw [List.foldl_cons, ih hrest]
    by_cases hb : spriteBit b c = true
    · rw [if_pos hb, Canvas.pixel_plot]
      by_cases hhere : cx.val = x0 + c ∧ cy.val = y
      · obtain ⟨hx, hy⟩ := hhere
        have hnone : ¬ ∃ d ∈ rest, cx.val = x0 + d ∧ spriteBit b d = true := fun ⟨d, hd, e, _⟩ => hother hx d hd e
        have hsome : ∃ d ∈ c :: rest, cx.val = x0 + d ∧ spriteBit b d = true := ⟨c, by simp, hx, hb⟩
        simp only [hx, hy, and_self, if_true]
        rw [decide_eq_false (by rintro ⟨-, d, hd, e, -⟩; exact hother hx d hd (by omega)),
          decide_eq_true ⟨trivial, c, by simp, rfl, hb⟩]
        simp
      · rw [if_neg hhere]
        congr 2
        simp only [List.mem_cons, exists_eq_or_imp, hb, and_true, eq_iff_iff]
        constructor
        · exact fun ⟨hy, h⟩ => ⟨hy, Or.inr h⟩
        · rintro ⟨hy, hx | h⟩
          · exact absurd ⟨hx, hy⟩ hhere
          · exact ⟨hy, h⟩
    · rw [if_neg hb]
      simp [hb]

/-- Columns of a row plotted from a list without repeats: a collision is recorded exactly when a set bit lands on a set
cell. -/
theorem Canvas.hit_plotColumns (cs : List Nat) (hcs : cs.Nodup) (cv : Canvas) (x0 y : Nat) (b : Byte) :
    (cs.foldl (fun cv c => if spriteBit b c then cv.plot (x0 + c) y else cv) cv).hit = true ↔
      cv.hit = true ∨ ∃ (cx : Fin 64) (cy : Fin 32), cy.val = y ∧ (∃ c ∈ cs, cx.val = x0 + c ∧ spriteBit b c = true) ∧
        cv.pixel cx cy = true := by
  induction cs generalizing cv with
  | nil => simp
  | cons c rest ih =>
    obtain ⟨hc, hrest⟩ := List.nodup_cons.mp hcs
    rw [List.foldl_cons, ih hrest]
    by_cases hb : spriteBit b c = true
    · rw [if_pos hb, Canvas.hit_plot, or_assoc]
      refine or_congr_right ⟨?_, ?_⟩
      · rintro (⟨cx, cy, hx, hy, hp⟩ | ⟨cx, cy, hy, ⟨d, hd, hx, hbd⟩, hp⟩)
        · exact ⟨cx, cy, hy, ⟨c, by simp, hx, hb⟩, hp⟩
        · refine ⟨cx, cy, hy, ⟨d, by simp [hd], hx, hbd⟩, ?_⟩
          rw [Canvas.pixel_plot, if_neg] at hp
          · exact hp
          · rintro ⟨hx', -⟩
            have : d = c := by omega
            exact hc (this ▸ hd)
      · rintro ⟨cx, cy, hy, ⟨d, hd, hx, hbd⟩, hp⟩
        rcases List.mem_cons.mp hd with rfl | hd
        · exact Or.inl ⟨cx, cy, hx, hy, hp⟩
        · refine Or.inr ⟨cx, cy, hy, ⟨d, hd, hx, hbd⟩, ?_⟩
          rw [Canvas.pixel_plot, if_neg]
          · exact hp
          · rintro ⟨hx', -⟩
            have : d = c := by omega
            exact hc (this ▸ hd)
    · rw [if_neg hb]
      simp [hb]

/-- One sprite row flips exactly the cells its set bits land on. -/
theorem Canvas.pixel_plotRow (cv : Canvas) (x0 y : Nat) (b : Byte) (cx : Fin 64) (cy : Fin 32) :
    (cv.plotRow x0 y b).pixel cx cy =
      (cv.pixel cx cy ^^ decide (cy.val = y ∧ ∃ c ∈ List.range 8, cx.val = x0 + c ∧ spriteBit b c = true)) :=
  Canvas.pixel_plotColumns _ List.nodup_range ..

/-- One sprite row records a collision exactly when a set bit of it lands on a set cell. -/
theorem Canvas.hit_plotRow (cv : Canvas) (x0 y : Nat) (b : Byte) :
    (cv.plotRow x0 y b).hit = true ↔
      cv.hit = true ∨ ∃ (cx : Fin 64) (cy : Fin 32), cy.val = y ∧ (∃ c ∈ List.range 8, cx.val = x0 + c ∧ spriteBit b c = true) ∧
        cv.pixel cx cy = true :=
  Canvas.hit_plotColumns _ List.nodup_range ..

/-- A sprite's rows flip exactly the cells their set bits land on. -/
theorem Canvas.pixel_plotRows (rows : List Byte) (cv : Canvas) (x0 y0 : Nat) (cx : Fin 64) (cy : Fin 32) :
    (cv.plotRows x0 y0 rows).pixel cx cy =
      (cv.pixel cx cy ^^ decide (∃ r, ∃ h : r < rows.length, cy.val = y0 + r ∧
        ∃ c ∈ List.range 8, cx.val = x0 + c ∧ spriteBit rows[r] c = true)) := by
  induction rows generalizing cv y0 with
  | nil => simp [Canvas.plotRows]
  | cons b rest ih =>
    rw [Canvas.plotRows, ih, Canvas.pixel_plotRow]
    by_cases hy : cy.val = y0
    · have hbelow : ¬ ∃ r, ∃ h : r < rest.length, cy.val = y0 + 1 + r ∧
          ∃ c ∈ List.range 8, cx.val = x0 + c ∧ spriteBit rest[r] c = true := by
        rintro ⟨r, h, e, -⟩; omega
      rw [decide_eq_false hbelow, Bool.xor_false]
      congr 2
      refine propext ⟨fun ⟨_, h⟩ => ⟨0, by simp, by simpa using hy, by simpa using h⟩, ?_⟩
      rintro ⟨r, h, e, h'⟩
      obtain rfl : r = 0 := by omega
      exact ⟨hy, by simpa using h'⟩
    · rw [decide_eq_false (p := cy.val = y0 ∧ _) (fun h => hy h.1), Bool.xor_false]
      congr 2
      apply propext
      constructor
      · rintro ⟨r, h, e, h'⟩
        exact ⟨r + 1, by simpa using h, by omega, by simpa using h'⟩
      · rintro ⟨r, h, e, h'⟩
        cases r with
        | zero => exact absurd e hy
        | succ r => exact ⟨r, by simpa using h, by omega, by simpa using h'⟩

/-- A sprite's rows record a collision exactly when a set bit of them lands on a cell that was set before the draw. -/
theorem Canvas.hit_plotRows (rows : List Byte) (cv : Canvas) (x0 y0 : Nat) :
    (cv.plotRows x0 y0 rows).hit = true ↔ cv.hit = true ∨ ∃ (cx : Fin 64) (cy : Fin 32),
      (∃ r, ∃ h : r < rows.length, cy.val = y0 + r ∧
        ∃ c ∈ List.range 8, cx.val = x0 + c ∧ spriteBit rows[r] c = true) ∧ cv.pixel cx cy = true := by
  induction rows generalizing cv y0 with
  | nil => simp [Canvas.plotRows]
  | cons b rest ih =>
    rw [Canvas.plotRows, ih, Canvas.hit_plotRow, or_assoc]
    apply or_congr_right
    constructor
    · rintro (⟨cx, cy, hy, hc, hp⟩ | ⟨cx, cy, ⟨r, hr, hy, hc⟩, hp⟩)
      · exact ⟨cx, cy, ⟨0, by simp, by simpa using hy, by simpa using hc⟩, hp⟩
      · refine ⟨cx, cy, ⟨r + 1, by simpa using hr, by omega, by simpa using hc⟩, ?_⟩
        rw [Canvas.pixel_plotRow, decide_eq_false (by rintro ⟨h, -⟩; omega), Bool.xor_false] at hp
        exact hp
    · rintro ⟨cx, cy, ⟨r, hr, hy, hc⟩, hp⟩
      cases r with
      | zero => exact .inl ⟨cx, cy, by simpa using hy, by simpa using hc, hp⟩
      | succ r =>
        refine .inr ⟨cx, cy, ⟨r, by simpa using hr, by omega, by simpa using hc⟩, ?_⟩
        rw [Canvas.pixel_plotRow, decide_eq_false (by rintro ⟨h, -⟩; omega), Bool.xor_false]
        exact hp

end Sys2Proof.Machine
end

