-- ==== Sys2Proof/Laws/Memory.lean ====
section
/-! SUPPORT. Memory: a read after a write, what a write leaves alone, and that every memory operation keeps the canonical
form. Callers cite these instead of unfolding the list. -/

namespace Sys2Proof.Machine

section Lists

variable {p : Params} {m : Memory} {a c : Nat} {b : Byte}

theorem Memory.find_insert_same (h : ∀ d ∈ m, d.1 ≠ a) :
    (Memory.insert (a, b) m).find? (fun d => d.1 == a) = some (a, b) := by
  induction m with
  | nil => simp [Memory.insert]
  | cons d rest ih =>
    have hd : d.1 ≠ a := h d (by simp)
    have ih' := ih (fun e he => h e (by simp [he]))
    by_cases hlt : d.1 < a <;> simp [Memory.insert, hlt, hd, ih']

theorem Memory.find_insert_other (h : c ≠ a) :
    (Memory.insert (a, b) m).find? (fun d => d.1 == c) = m.find? (fun d => d.1 == c) := by
  have hne : (a == c) = false := by simpa using fun e => h e.symm
  induction m with
  | nil => simp [Memory.insert, hne]
  | cons d rest ih =>
    by_cases hlt : d.1 < a
    · simp only [Memory.insert, hlt, if_true, List.find?_cons, ih]
    · simp [Memory.insert, hlt, hne]

theorem Memory.find_filter_other (h : c ≠ a) :
    (m.filter (fun d => d.1 != a)).find? (fun d => d.1 == c) = m.find? (fun d => d.1 == c) := by
  rw [List.find?_filter]
  congr 1
  funext d
  by_cases hc : d.1 = c
  · subst hc; simp [h]
  · simp [hc]

theorem Memory.mem_insert {d e : Host.Cell} : e ∈ Memory.insert d m ↔ e = d ∨ e ∈ m := by
  induction m with
  | nil => simp [Memory.insert]
  | cons f rest ih =>
    by_cases hlt : f.1 < d.1
    · simp only [Memory.insert, hlt, if_true, List.mem_cons, ih]; tauto
    · simp [Memory.insert, hlt]

theorem Memory.pairwise_insert {d : Host.Cell} (hs : m.Pairwise (fun e f => e.1 < f.1)) (hn : ∀ e ∈ m, e.1 ≠ d.1) :
    (Memory.insert d m).Pairwise (fun e f => e.1 < f.1) := by
  induction m with
  | nil => simp [Memory.insert]
  | cons f rest ih =>
    obtain ⟨hf, hr⟩ := List.pairwise_cons.mp hs
    by_cases hlt : f.1 < d.1
    · simp only [Memory.insert, hlt, if_true, List.pairwise_cons]
      refine ⟨fun e he => ?_, ih hr (fun e he => hn e (by simp [he]))⟩
      rcases Memory.mem_insert.mp he with rfl | he
      · exact hlt
      · exact hf e he
    · have hfd : d.1 < f.1 := by
        have := hn f (by simp)
        omega
      simp only [Memory.insert, hlt, if_false, List.pairwise_cons]
      refine ⟨fun e he => ?_, List.pairwise_cons.mp hs⟩
      rcases List.mem_cons.mp he with rfl | he
      · exact hfd
      · exact lt_trans hfd (hf e he)

end Lists

variable {p : Params} {m : Memory} {a c : Nat} {b : Byte}

theorem Memory.read_write_same : Memory.read p (Memory.write p m a b) a = b := by
  have hn : ∀ d ∈ m.filter (fun d => d.1 != a), d.1 ≠ a := by simp
  unfold Memory.write Memory.read
  by_cases hb : b = Memory.unlisted p a
  · have hfind : (m.filter (fun d => d.1 != a)).find? (fun d => d.1 == a) = none := by simp
    simp only [hb, if_true, hfind]
  · simp only [hb, if_false, Memory.find_insert_same hn]

theorem Memory.read_write_other (h : c ≠ a) : Memory.read p (Memory.write p m a b) c = Memory.read p m c := by
  unfold Memory.write Memory.read
  by_cases hb : b = Memory.unlisted p a
  · simp only [hb, if_true, Memory.find_filter_other h]
  · simp only [hb, if_false, Memory.find_insert_other h, Memory.find_filter_other h]

/-- The empty memory, which the reset state has, is canonical. -/
theorem Memory.wf_nil : Memory.wf p [] := by simp [Memory.wf]

/-- A write keeps the canonical form. -/
theorem Memory.wf_write (h : Memory.wf p m) (ha : a < 4096) : Memory.wf p (Memory.write p m a b) := by
  obtain ⟨hs, hc⟩ := h
  have hs' : (m.filter (fun d => d.1 != a)).Pairwise (fun e f => e.1 < f.1) := hs.filter _
  have hc' : ∀ e ∈ m.filter (fun d => d.1 != a), e.1 < 4096 ∧ e.2 ≠ Memory.unlisted p e.1 :=
    fun e he => hc e (List.mem_of_mem_filter he)
  unfold Memory.write
  by_cases hb : b = Memory.unlisted p a
  · simp only [hb, if_true]; exact ⟨hs', hc'⟩
  · simp only [hb, if_false]
    refine ⟨Memory.pairwise_insert hs' (by simp), fun e he => ?_⟩
    rcases Memory.mem_insert.mp he with rfl | he
    · exact ⟨ha, hb⟩
    · exact hc' e he

/-- Storing a run of bytes keeps the canonical form. -/
theorem Memory.wf_writeBytes (h : Memory.wf p m) (bytes : List Byte) : Memory.wf p (Memory.writeBytes p m a bytes) := by
  induction bytes generalizing m a with
  | nil => exact h
  | cons b rest ih => exact ih (Memory.wf_write h (Nat.mod_lt _ (by norm_num)))

/-- An address no byte of the run lands on reads as before. -/
theorem Memory.read_writeBytes_other {bytes : List Byte} (h : ∀ k < bytes.length, (a + k) % 4096 ≠ c) :
    Memory.read p (Memory.writeBytes p m a bytes) c = Memory.read p m c := by
  induction bytes generalizing m a with
  | nil => rfl
  | cons b rest ih =>
    have h0 : c ≠ a % 4096 := fun e => h 0 (by simp) (by simpa using e.symm)
    have hrest : ∀ k < rest.length, (a + 1 + k) % 4096 ≠ c := fun k hk => by
      have := h (k + 1) (by simpa using hk)
      rwa [show a + 1 + k = a + (k + 1) by omega]
    rw [Memory.writeBytes, ih hrest, Memory.read_write_other h0]

/-- The k-th byte of a run of at most 4096 bytes is read back at its address. -/
theorem Memory.read_writeBytes_at {bytes : List Byte} {k : Nat} (hk : k < bytes.length) (hlen : bytes.length ≤ 4096) :
    Memory.read p (Memory.writeBytes p m a bytes) ((a + k) % 4096) = bytes[k] := by
  induction bytes generalizing m a k with
  | nil => simp at hk
  | cons b rest ih =>
    simp only [List.length_cons] at hk hlen
    cases k with
    | zero =>
      have hother : ∀ j < rest.length, (a + 1 + j) % 4096 ≠ a % 4096 := fun j hj => by omega
      rw [Memory.writeBytes, show a + 0 = a from rfl, Memory.read_writeBytes_other hother, Memory.read_write_same]
      rfl
    | succ k =>
      rw [Memory.writeBytes, show a + (k + 1) = a + 1 + k by omega, ih (by omega) (by omega)]
      rfl

/-! ### The same on states -/

/-- A read sees only memory and the parameters. -/
theorem State.memRead_congr {s t : State} (hm : t.mem = s.mem) (hp : t.params = s.params) (addr : Nat) :
    t.memRead addr = s.memRead addr := by
  simp only [State.memRead, hm, hp]

/-- Addresses are reduced mod 4096 (00_scope.md R12). -/
theorem State.memRead_mod (s : State) (addr : Nat) : s.memRead (addr % 4096) = s.memRead addr := by
  simp [State.memRead]

theorem State.memRead_memWrite_same (s : State) (addr : Nat) (b : Byte) : (s.memWrite addr b).memRead addr = b :=
  Memory.read_write_same

theorem State.memRead_memWrite_other (s : State) {addr c : Nat} (b : Byte) (h : c % 4096 ≠ addr % 4096) :
    (s.memWrite addr b).memRead c = s.memRead c :=
  Memory.read_write_other h

theorem State.memRead_memWriteBytes_at (s : State) (addr : Nat) {bytes : List Byte} {k : Nat} (hk : k < bytes.length)
    (hlen : bytes.length ≤ 4096) : (s.memWriteBytes addr bytes).memRead (addr + k) = bytes[k] :=
  Memory.read_writeBytes_at hk hlen

theorem State.memRead_memWriteBytes_other (s : State) {addr c : Nat} {bytes : List Byte}
    (h : ∀ k < bytes.length, (addr + k) % 4096 ≠ c % 4096) : (s.memWriteBytes addr bytes).memRead c = s.memRead c :=
  Memory.read_writeBytes_other h

@[simp] theorem State.memRead_setReg (s : State) (x : Reg) (b : Byte) (addr : Nat) : (s.setReg x b).memRead addr = s.memRead addr := rfl
@[simp] theorem State.memRead_setRegAndFlag (s : State) (x : Reg) (b : Byte) (f : Bool) (addr : Nat) : (s.setRegAndFlag x b f).memRead addr = s.memRead addr := rfl
@[simp] theorem State.memRead_loadRegs (s : State) (bytes : List Byte) (addr : Nat) : (s.loadRegs bytes).memRead addr = s.memRead addr := rfl
@[simp] theorem State.memRead_setI (s : State) (a : Word) (addr : Nat) : (s.setI a).memRead addr = s.memRead addr := rfl
@[simp] theorem State.memRead_setDT (s : State) (b : Byte) (addr : Nat) : (s.setDT b).memRead addr = s.memRead addr := rfl
@[simp] theorem State.memRead_setST (s : State) (b : Byte) (addr : Nat) : (s.setST b).memRead addr = s.memRead addr := rfl
@[simp] theorem State.memRead_advance (s : State) (addr : Nat) : s.advance.memRead addr = s.memRead addr := rfl
@[simp] theorem State.memRead_advanceSkipping (s : State) (c : Bool) (addr : Nat) : (s.advanceSkipping c).memRead addr = s.memRead addr := rfl
@[simp] theorem State.memRead_jump (s : State) (a : Word) (addr : Nat) : (s.jump a).memRead addr = s.memRead addr := rfl
@[simp] theorem State.memRead_push (s : State) (a : Word) (h : s.sp.val < 16) (addr : Nat) : (s.push a h).memRead addr = s.memRead addr := rfl
@[simp] theorem State.memRead_pop (s : State) (addr : Nat) : s.pop.memRead addr = s.memRead addr := rfl
@[simp] theorem State.memRead_reportAndAdvance (s : State) (k : Word → Word → Report) (w : Word) (addr : Nat) : (s.reportAndAdvance k w).memRead addr = s.memRead addr := rfl
@[simp] theorem State.memRead_drawSprite (s : State) (x0 y0 : Nat) (rows : List Byte) (addr : Nat) : (s.drawSprite x0 y0 rows).memRead addr = s.memRead addr := rfl
@[simp] theorem State.memRead_clearDisplay (s : State) (addr : Nat) : s.clearDisplay.memRead addr = s.memRead addr := rfl
@[simp] theorem State.memRead_nextRandom (s : State) (addr : Nat) : s.nextRandom.memRead addr = s.memRead addr := rfl
@[simp] theorem State.memRead_beginCycle (s : State) (addr : Nat) : s.beginCycle.memRead addr = s.memRead addr := rfl
@[simp] theorem State.memRead_tickTimers (s : State) (addr : Nat) : s.tickTimers.memRead addr = s.memRead addr := rfl

@[simp] theorem State.length_memReadBytes (s : State) (addr count : Nat) :
    (s.memReadBytes addr count).length = count := by
  simp [State.memReadBytes]

theorem State.getElem_memReadBytes (s : State) (addr count : Nat) {k : Nat} (hk : k < (s.memReadBytes addr count).length) :
    (s.memReadBytes addr count)[k] = s.memRead (addr + k) := by
  simp [State.memReadBytes]

@[simp] theorem length_bcdDigits (a : Byte) : (bcdDigits a).length = 3 := rfl

@[simp] theorem State.length_regsUpTo (s : State) (x : Reg) : (s.regsUpTo x).length = x.val + 1 := by
  simp [State.regsUpTo]

theorem State.getElem_regsUpTo (s : State) (x : Reg) {k : Nat} (hk : k < (s.regsUpTo x).length) :
    (s.regsUpTo x)[k] = s.v[k]'(by simp at hk; omega) := by
  simp [State.regsUpTo]

/-- `Reset`, memory part: font bytes inside the font table, zero elsewhere (10_state.md R37). -/
theorem State.memRead_resetWith (q : Params) {addr : Nat} (h : addr < 4096) :
    (State.resetWith q).memRead addr = Memory.unlisted q addr := by
  simp [State.memRead, Memory.read, State.resetWith, Nat.mod_eq_of_lt h]

end Sys2Proof.Machine
end

