-- ==== Sys2Proof/Laws/Exec.lean ====
section
/-! SUPPORT. The outcome of a step: what each arm of the dispatch answers, mapNext, and the shape of one step. -/

namespace Sys2Proof.Machine

@[simp] theorem mapNext_next (f : State → State) (s : State) : mapNext f (.next s) = .next (f s) := rfl

theorem mapNext_eq_next {f : State → State} {o : Host.Outcome State Fault Refusal} {t : State} :
    mapNext f o = .next t ↔ ∃ s, o = .next s ∧ t = f s := by
  cases o <;> simp [mapNext, eq_comm]

/-- All that a step can do: execute what was decoded, from the state with fresh outputs, and finish the cycle. -/
theorem step_eq_next {s u : State} :
    step s = .next u ↔ ∃ t, execDecoded (decode s.fetchWord) s.beginCycle = .next t ∧ u = t.finishCycle :=
  mapNext_eq_next

/-- The fetch sees only memory, the parameters and pc. -/
theorem State.fetchWord_congr {s t : State} (hm : t.mem = s.mem) (hp : t.params = s.params) (hpc : t.pc = s.pc) :
    t.fetchWord = s.fetchWord := by
  simp only [State.fetchWord, State.memRead, hm, hp, hpc]

@[simp] theorem State.fetchWord_beginCycle (s : State) : s.beginCycle.fetchWord = s.fetchWord := rfl

/-! ### The cycle's end in the two timer modes (70_reset_and_hazards.md R226) -/

theorem State.endCycle_perCycle {s : State} (h : s.params.timerMode = .perCycle) :
    s.endCycle = s.tickTimers.nextRandom := by
  simp only [State.endCycle, h]

theorem State.endCycle_external {s : State} (h : s.params.timerMode = .external) : s.endCycle = s.nextRandom := by
  simp only [State.endCycle, h]

/-! ### What the cycle's end leaves alone, and the random byte it uses up -/

@[simp] theorem State.endCycle_v (s : State) : s.endCycle.v = s.v := by unfold State.endCycle; split <;> rfl
@[simp] theorem State.endCycle_i (s : State) : s.endCycle.i = s.i := by unfold State.endCycle; split <;> rfl
@[simp] theorem State.endCycle_pc (s : State) : s.endCycle.pc = s.pc := by unfold State.endCycle; split <;> rfl
@[simp] theorem State.endCycle_sp (s : State) : s.endCycle.sp = s.sp := by unfold State.endCycle; split <;> rfl
@[simp] theorem State.endCycle_stack (s : State) : s.endCycle.stack = s.stack := by unfold State.endCycle; split <;> rfl
@[simp] theorem State.endCycle_mem (s : State) : s.endCycle.mem = s.mem := by unfold State.endCycle; split <;> rfl
@[simp] theorem State.endCycle_fb (s : State) : s.endCycle.fb = s.fb := by unfold State.endCycle; split <;> rfl
@[simp] theorem State.endCycle_keys (s : State) : s.endCycle.keys = s.keys := by unfold State.endCycle; split <;> rfl
@[simp] theorem State.endCycle_report (s : State) : s.endCycle.report = s.report := by unfold State.endCycle; split <;> rfl
@[simp] theorem State.endCycle_params (s : State) : s.endCycle.params = s.params := by unfold State.endCycle; split <;> rfl
@[simp] theorem State.endCycle_driver (s : State) : s.endCycle.driver = s.driver := by unfold State.endCycle; split <;> rfl
@[simp] theorem State.endCycle_rndIn (s : State) : s.endCycle.rndIn = s.rndIn.tail := by unfold State.endCycle; split <;> rfl
@[simp] theorem State.endCycle_rndCount (s : State) : s.endCycle.rndCount = s.rndCount + 1 := by unfold State.endCycle; split <;> rfl

/-! ### The driver's gap (10_state.md R48) -/

/-- Whatever every move keeps, the driver's whole gap keeps. -/
theorem applyMoves_keeps {P : State → Prop} (hmove : ∀ s m, P s → P (applyMove s m)) (moves : List DriverMove) {s : State}
    (h : P s) : P (applyMoves s moves) := by
  induction moves generalizing s with
  | nil => exact h
  | cons m rest ih => exact ih (hmove s m h)

/-- The gap: the moves the script lists first, on the state whose script is the rest. -/
theorem State.driverTurn_eq (s : State) :
    s.driverTurn = applyMoves { s with driver := s.driver.tail } (s.driver.headD []) := by
  unfold State.driverTurn
  cases h : s.driver with
  | nil => simp only [List.tail_nil, List.headD_nil, applyMoves]; rw [← h]
  | cons moves rest => rfl

/-- No move changes the parameters of the machine. -/
@[simp] theorem applyMove_params (s : State) (m : DriverMove) : (applyMove s m).params = s.params := by
  cases m <;> simp only [applyMove, State.loadRom, State.driverTick, State.resetCore, State.memWrite_params]
  · split <;> rfl
  · split <;> rfl
  · rfl

/-- Every move of the driver keeps memory canonical. -/
theorem applyMove_wf (s : State) (m : DriverMove) (h : Memory.wf s.params s.mem) :
    Memory.wf (applyMove s m).params (applyMove s m).mem := by
  rw [applyMove_params]
  cases m with
  | writeKeys keys => exact h
  | writeMemory a b => exact Memory.wf_write h (Nat.mod_lt _ (by norm_num))
  | loadRom image =>
    simp only [applyMove, State.loadRom]
    split
    · exact Memory.wf_writeBytes h image
    · exact h
  | timerTick =>
    simp only [applyMove, State.driverTick]
    split <;> exact h
  | reset => exact Memory.wf_nil

/-! ### The arms of the dispatch -/

@[simp] theorem exec_cls (ign : Nibble) (s : State) : exec (.cls ign) s = execCls ign s := rfl
@[simp] theorem exec_ret (ign : Nibble) (s : State) : exec (.ret ign) s = execRet ign s := rfl
@[simp] theorem exec_jp (nnn : Addr12) (s : State) : exec (.jp nnn) s = execJp nnn s := rfl
@[simp] theorem exec_call (nnn : Addr12) (s : State) : exec (.call nnn) s = execCall nnn s := rfl
@[simp] theorem exec_seImm (x : Reg) (kk : Byte) (s : State) : exec (.seImm x kk) s = execSeImm x kk s := rfl
@[simp] theorem exec_sneImm (x : Reg) (kk : Byte) (s : State) : exec (.sneImm x kk) s = execSneImm x kk s := rfl
@[simp] theorem exec_seReg (x y : Reg) (ign : Nibble) (s : State) : exec (.seReg x y ign) s = execSeReg x y ign s := rfl
@[simp] theorem exec_sneReg (x y : Reg) (ign : Nibble) (s : State) : exec (.sneReg x y ign) s = execSneReg x y ign s := rfl
@[simp] theorem exec_ldImm (x : Reg) (kk : Byte) (s : State) : exec (.ldImm x kk) s = execLdImm x kk s := rfl
@[simp] theorem exec_addImm (x : Reg) (kk : Byte) (s : State) : exec (.addImm x kk) s = execAddImm x kk s := rfl
@[simp] theorem exec_ldReg (x y : Reg) (s : State) : exec (.ldReg x y) s = execLdReg x y s := rfl
@[simp] theorem exec_orReg (x y : Reg) (s : State) : exec (.orReg x y) s = execOrReg x y s := rfl
@[simp] theorem exec_andReg (x y : Reg) (s : State) : exec (.andReg x y) s = execAndReg x y s := rfl
@[simp] theorem exec_xorReg (x y : Reg) (s : State) : exec (.xorReg x y) s = execXorReg x y s := rfl
@[simp] theorem exec_addReg (x y : Reg) (s : State) : exec (.addReg x y) s = execAddReg x y s := rfl
@[simp] theorem exec_subReg (x y : Reg) (s : State) : exec (.subReg x y) s = execSubReg x y s := rfl
@[simp] theorem exec_shr (x : Reg) (ign : Nibble) (s : State) : exec (.shr x ign) s = execShr x ign s := rfl
@[simp] theorem exec_subnReg (x y : Reg) (s : State) : exec (.subnReg x y) s = execSubnReg x y s := rfl
@[simp] theorem exec_shl (x : Reg) (ign : Nibble) (s : State) : exec (.shl x ign) s = execShl x ign s := rfl
@[simp] theorem exec_ldI (nnn : Addr12) (s : State) : exec (.ldI nnn) s = execLdI nnn s := rfl
@[simp] theorem exec_jpV0 (nnn : Addr12) (s : State) : exec (.jpV0 nnn) s = execJpV0 nnn s := rfl
@[simp] theorem exec_rnd (x : Reg) (kk : Byte) (s : State) : exec (.rnd x kk) s = execRnd x kk s := rfl
@[simp] theorem exec_drw (x y : Reg) (n : Nibble) (s : State) : exec (.drw x y n) s = execDrw x y n s := rfl
@[simp] theorem exec_skp (x : Reg) (s : State) : exec (.skp x) s = execSkp x s := rfl
@[simp] theorem exec_sknp (x : Reg) (s : State) : exec (.sknp x) s = execSknp x s := rfl
@[simp] theorem exec_ldVxDT (x : Reg) (s : State) : exec (.ldVxDT x) s = execLdVxDT x s := rfl
@[simp] theorem exec_ldDTVx (x : Reg) (s : State) : exec (.ldDTVx x) s = execLdDTVx x s := rfl
@[simp] theorem exec_ldSTVx (x : Reg) (s : State) : exec (.ldSTVx x) s = execLdSTVx x s := rfl
@[simp] theorem exec_ldVxK (x : Reg) (s : State) : exec (.ldVxK x) s = execLdVxK x s := rfl
@[simp] theorem exec_addI (x : Reg) (s : State) : exec (.addI x) s = execAddI x s := rfl
@[simp] theorem exec_ldF (x : Reg) (s : State) : exec (.ldF x) s = execLdF x s := rfl
@[simp] theorem exec_ldB (x : Reg) (s : State) : exec (.ldB x) s = execLdB x s := rfl
@[simp] theorem exec_ldMemVx (x : Reg) (s : State) : exec (.ldMemVx x) s = execLdMemVx x s := rfl
@[simp] theorem exec_ldVxMem (x : Reg) (s : State) : exec (.ldVxMem x) s = execLdVxMem x s := rfl

end Sys2Proof.Machine
end

