-- ==== Sys2Proof/Laws/Operands.lean ====
section
/-! SUPPORT. The operand forms and flags as numbers, and the key scan. -/

namespace Sys2Proof.Machine

@[simp] theorem toNat_addrOf (nnn : Addr12) : (addrOf nnn).toNat = nnn.toNat := by
  have := nnn.isLt
  simp only [addrOf, BitVec.toNat_setWidth]; omega

@[simp] theorem toNat_widen (b : Byte) : (widen b).toNat = b.toNat := by
  have := b.isLt
  simp only [widen, BitVec.toNat_setWidth]; omega

@[simp] theorem val_lowNibble (b : Byte) : (lowNibble b).val = b.toNat % 16 := by
  have h : (lowNibble b).val = (b.extractLsb' 0 4).toNat := rfl
  rw [h, BitVec.extractLsb'_toNat, Nat.shiftRight_zero]

/-- The font address, which the constraint on FONT_BASE keeps below 0x200 (44_index_memory.md R181). -/
theorem toNat_fontAddress (p : Params) (b : Byte) :
    (fontAddress p b).toNat = p.fontBase.val + 5 * (b.toNat % 16) := by
  have h1 := p.fontBase.isLt
  have h2 := Nat.mod_lt b.toNat (show 0 < 16 by norm_num)
  simp only [fontAddress, BitVec.toNat_ofNat, val_lowNibble]; omega

@[simp] theorem flagByte_eq_one {f : Bool} : flagByte f = 1#8 ↔ f = true := by cases f <;> decide

@[simp] theorem flagByte_eq_zero {f : Bool} : flagByte f = 0#8 ↔ f = false := by cases f <;> decide

@[simp] theorem toNat_flagByte {f : Bool} : (flagByte f).toNat = f.toNat := by cases f <;> rfl

/-- No key is found exactly when none is pressed (43_keypad_and_timers.md R175). -/
theorem State.firstKey_eq_none {s : State} : s.firstKey = none ↔ ∀ k : Fin 16, s.keys[k.val] = false := by
  simp [State.firstKey]

/-- The key found is the least pressed one (43_keypad_and_timers.md R175). -/
theorem State.firstKey_eq_some {s : State} {k : Fin 16} (h : s.firstKey = some k) :
    s.keys[k.val] = true ∧ ∀ j : Fin 16, j.val < k.val → s.keys[j.val] = false := by
  obtain ⟨hk, as, bs, hsplit, has⟩ := List.find?_eq_some_iff_append.mp h
  refine ⟨hk, fun j hj => ?_⟩
  have hlt : (as ++ k :: bs).Pairwise (· < ·) := hsplit ▸ List.pairwise_lt_finRange 16
  have hmem : j ∈ as ++ k :: bs := hsplit ▸ List.mem_finRange j
  have hja : j ∈ as := by
    rcases List.mem_append.mp hmem with hja | hjb
    · exact hja
    · rcases List.mem_cons.mp hjb with rfl | hjb
      · exact absurd hj (lt_irrefl _)
      · have hkj := (List.pairwise_cons.mp (List.pairwise_append.mp hlt).2.1).1 j hjb
        exact absurd hj (not_lt.mpr (le_of_lt hkj))
  simpa using has j hja

/-- A timer counts down by one and stops at 0 (70_reset_and_hazards.md R228). -/
theorem toNat_tickDown (t : Byte) : (tickDown t).toNat = t.toNat - 1 := by
  unfold tickDown
  by_cases h : t = 0
  · subst h; rfl
  · rw [if_neg h]
    bv_omega

end Sys2Proof.Machine
end

