-- ==== Sys2Proof/Laws/PerInstr.lean ====
section
/-! SUPPORT. Statements for all instructions, one lemma for each constructor. The family OpcodeRow: the instruction's word
matches its row of the opcode map (30_encoding.md R97). -/

namespace Sys2Proof.Laws.OpcodeRow

/-- The word of the instruction, under the mask of the instruction's row of the opcode map, is the row's match. -/
def Statement (i : Instr) : Prop :=
  ∃ row ∈ opcodeMap, row.number = rowNumber i ∧ encode i &&& row.mask = row.pattern

theorem of_row {i : Instr} (row : OpcodeRow) (hr : row ∈ opcodeMap) (hn : row.number = rowNumber i)
    (hw : encode i &&& row.mask = row.pattern) : Statement i :=
  ⟨row, hr, hn, hw⟩

theorem cls (ign : Nibble) : Statement (.cls ign) :=
  of_row ⟨1, 0xF0FF, 0x00E0⟩ (by decide) rfl (by simp [encode, and_F0FF]; rfl)

theorem ret (ign : Nibble) : Statement (.ret ign) :=
  of_row ⟨2, 0xF0FF, 0x00EE⟩ (by decide) rfl (by simp [encode, and_F0FF]; rfl)

theorem jp (nnn : Addr12) : Statement (.jp nnn) :=
  of_row ⟨3, 0xF000, 0x1000⟩ (by decide) rfl (by simp [encode, and_F000]; rfl)

theorem call (nnn : Addr12) : Statement (.call nnn) :=
  of_row ⟨4, 0xF000, 0x2000⟩ (by decide) rfl (by simp [encode, and_F000]; rfl)

theorem seImm (x : Reg) (kk : Byte) : Statement (.seImm x kk) :=
  of_row ⟨5, 0xF000, 0x3000⟩ (by decide) rfl (by simp [encode, and_F000]; rfl)

theorem sneImm (x : Reg) (kk : Byte) : Statement (.sneImm x kk) :=
  of_row ⟨6, 0xF000, 0x4000⟩ (by decide) rfl (by simp [encode, and_F000]; rfl)

theorem seReg (x y : Reg) (ign : Nibble) : Statement (.seReg x y ign) :=
  of_row ⟨7, 0xF000, 0x5000⟩ (by decide) rfl (by simp [encode, and_F000]; rfl)

theorem sneReg (x y : Reg) (ign : Nibble) : Statement (.sneReg x y ign) :=
  of_row ⟨8, 0xF000, 0x9000⟩ (by decide) rfl (by simp [encode, and_F000]; rfl)

theorem ldImm (x : Reg) (kk : Byte) : Statement (.ldImm x kk) :=
  of_row ⟨9, 0xF000, 0x6000⟩ (by decide) rfl (by simp [encode, and_F000]; rfl)

theorem addImm (x : Reg) (kk : Byte) : Statement (.addImm x kk) :=
  of_row ⟨10, 0xF000, 0x7000⟩ (by decide) rfl (by simp [encode, and_F000]; rfl)

theorem ldReg (x y : Reg) : Statement (.ldReg x y) :=
  of_row ⟨11, 0xF00F, 0x8000⟩ (by decide) rfl (by simp [encode, and_F00F]; rfl)

theorem orReg (x y : Reg) : Statement (.orReg x y) :=
  of_row ⟨12, 0xF00F, 0x8001⟩ (by decide) rfl (by simp [encode, and_F00F]; rfl)

theorem andReg (x y : Reg) : Statement (.andReg x y) :=
  of_row ⟨13, 0xF00F, 0x8002⟩ (by decide) rfl (by simp [encode, and_F00F]; rfl)

theorem xorReg (x y : Reg) : Statement (.xorReg x y) :=
  of_row ⟨14, 0xF00F, 0x8003⟩ (by decide) rfl (by simp [encode, and_F00F]; rfl)

theorem addReg (x y : Reg) : Statement (.addReg x y) :=
  of_row ⟨15, 0xF00F, 0x8004⟩ (by decide) rfl (by simp [encode, and_F00F]; rfl)

theorem subReg (x y : Reg) : Statement (.subReg x y) :=
  of_row ⟨16, 0xF00F, 0x8005⟩ (by decide) rfl (by simp [encode, and_F00F]; rfl)

theorem shr (x : Reg) (ign : Nibble) : Statement (.shr x ign) :=
  of_row ⟨17, 0xF00F, 0x8006⟩ (by decide) rfl (by simp [encode, and_F00F]; rfl)

theorem subnReg (x y : Reg) : Statement (.subnReg x y) :=
  of_row ⟨18, 0xF00F, 0x8007⟩ (by decide) rfl (by simp [encode, and_F00F]; rfl)

theorem shl (x : Reg) (ign : Nibble) : Statement (.shl x ign) :=
  of_row ⟨19, 0xF00F, 0x800E⟩ (by decide) rfl (by simp [encode, and_F00F]; rfl)

theorem ldI (nnn : Addr12) : Statement (.ldI nnn) :=
  of_row ⟨20, 0xF000, 0xA000⟩ (by decide) rfl (by simp [encode, and_F000]; rfl)

theorem jpV0 (nnn : Addr12) : Statement (.jpV0 nnn) :=
  of_row ⟨21, 0xF000, 0xB000⟩ (by decide) rfl (by simp [encode, and_F000]; rfl)

theorem rnd (x : Reg) (kk : Byte) : Statement (.rnd x kk) :=
  of_row ⟨22, 0xF000, 0xC000⟩ (by decide) rfl (by simp [encode, and_F000]; rfl)

theorem drw (x y : Reg) (n : Nibble) : Statement (.drw x y n) :=
  of_row ⟨23, 0xF000, 0xD000⟩ (by decide) rfl (by simp [encode, and_F000]; rfl)

theorem skp (x : Reg) : Statement (.skp x) :=
  of_row ⟨24, 0xF0FF, 0xE09E⟩ (by decide) rfl (by simp [encode, and_F0FF]; rfl)

theorem sknp (x : Reg) : Statement (.sknp x) :=
  of_row ⟨25, 0xF0FF, 0xE0A1⟩ (by decide) rfl (by simp [encode, and_F0FF]; rfl)

theorem ldVxDT (x : Reg) : Statement (.ldVxDT x) :=
  of_row ⟨26, 0xF0FF, 0xF007⟩ (by decide) rfl (by simp [encode, and_F0FF]; rfl)

theorem ldDTVx (x : Reg) : Statement (.ldDTVx x) :=
  of_row ⟨27, 0xF0FF, 0xF015⟩ (by decide) rfl (by simp [encode, and_F0FF]; rfl)

theorem ldSTVx (x : Reg) : Statement (.ldSTVx x) :=
  of_row ⟨28, 0xF0FF, 0xF018⟩ (by decide) rfl (by simp [encode, and_F0FF]; rfl)

theorem ldVxK (x : Reg) : Statement (.ldVxK x) :=
  of_row ⟨29, 0xF0FF, 0xF00A⟩ (by decide) rfl (by simp [encode, and_F0FF]; rfl)

theorem addI (x : Reg) : Statement (.addI x) :=
  of_row ⟨30, 0xF0FF, 0xF01E⟩ (by decide) rfl (by simp [encode, and_F0FF]; rfl)

theorem ldF (x : Reg) : Statement (.ldF x) :=
  of_row ⟨31, 0xF0FF, 0xF029⟩ (by decide) rfl (by simp [encode, and_F0FF]; rfl)

theorem ldB (x : Reg) : Statement (.ldB x) :=
  of_row ⟨32, 0xF0FF, 0xF033⟩ (by decide) rfl (by simp [encode, and_F0FF]; rfl)

theorem ldMemVx (x : Reg) : Statement (.ldMemVx x) :=
  of_row ⟨33, 0xF0FF, 0xF055⟩ (by decide) rfl (by simp [encode, and_F0FF]; rfl)

theorem ldVxMem (x : Reg) : Statement (.ldVxMem x) :=
  of_row ⟨34, 0xF0FF, 0xF065⟩ (by decide) rfl (by simp [encode, and_F0FF]; rfl)

end Sys2Proof.Laws.OpcodeRow
end

