-- ==== Sys2Proof/Tests/Slice0.lean ====
section
/-! SUPPORT. Tests of single operations and single steps, and a witness for every statement that has hypotheses. The
expected values come from the spec's test vectors (95_test_vectors.md, whose row each test names) and from its rules. -/

namespace Sys2Proof.Tests

open Sys2Proof.Machine

/-! ### Helpers -/

/-- The reset state, changed by `f`, with the word `w` where the next fetch reads it. -/
def boot (w : Nat) (f : State → State) : State := (f State.reset).withFetchWord 16 w

/-- Whether one step from `s` gives a next state that satisfies `p`. -/
def after (s : State) (p : State → Bool) : Bool :=
  match step s with
  | .next t => p t
  | .fault _ => false
  | .refused _ => false

/-- The keypad with these keys pressed. -/
def pressed (ks : List Nat) : Vector Bool 16 := Vector.ofFn (fun k => ks.contains k.val)

/-! ### Well-formedness (30_encoding.md R96): every check refuses an ill-formed term -/

theorem test_wf_refuses_cls : (Instr.cls 0xA).wellFormed = false := by decide
theorem test_wf_refuses_ret : (Instr.ret 0x1).wellFormed = false := by decide
theorem test_wf_refuses_seReg : (Instr.seReg 1 2 7).wellFormed = false := by decide
theorem test_wf_refuses_sneReg : (Instr.sneReg 1 2 0xF).wellFormed = false := by decide
theorem test_wf_refuses_shr : (Instr.shr 10 11).wellFormed = false := by decide
theorem test_wf_refuses_shl : (Instr.shl 10 11).wellFormed = false := by decide
theorem test_wf_accepts_canonical :
    (Instr.cls 0).wellFormed = true ∧ (Instr.ret 0).wellFormed = true ∧ (Instr.seReg 1 2 0).wellFormed = true ∧
    (Instr.sneReg 1 2 0).wellFormed = true ∧ (Instr.shr 10 0).wellFormed = true ∧ (Instr.shl 10 0).wellFormed = true ∧
    (Instr.drw 15 15 15).wellFormed = true := by decide

/-! ### Decoding (95_test_vectors.md section 2; 30_encoding.md R97, R108): a word of every constructor -/

theorem test_decode_flow :
    decode 0x00E0 = .instr (.cls 0) ∧ decode 0x0AE0 = .instr (.cls 0xA) ∧ decode 0x00EE = .instr (.ret 0) ∧
    decode 0x1ABC = .instr (.jp 0xABC) ∧ decode 0x2210 = .instr (.call 0x210) ∧
    decode 0x3A07 = .instr (.seImm 10 7) ∧ decode 0x4A07 = .instr (.sneImm 10 7) ∧
    decode 0x5120 = .instr (.seReg 1 2 0) ∧ decode 0x5127 = .instr (.seReg 1 2 7) ∧
    decode 0x9120 = .instr (.sneReg 1 2 0) := by decide

theorem test_decode_immediate : decode 0x6005 = .instr (.ldImm 0 5) ∧ decode 0x7003 = .instr (.addImm 0 3) := by decide

theorem test_decode_alu :
    decode 0x8AB0 = .instr (.ldReg 10 11) ∧ decode 0x8AB1 = .instr (.orReg 10 11) ∧
    decode 0x8AB2 = .instr (.andReg 10 11) ∧ decode 0x8AB3 = .instr (.xorReg 10 11) ∧
    decode 0x8AB4 = .instr (.addReg 10 11) ∧ decode 0x8AB5 = .instr (.subReg 10 11) ∧
    decode 0x8AB6 = .instr (.shr 10 11) ∧ decode 0x8AB7 = .instr (.subnReg 10 11) ∧
    decode 0x8ABE = .instr (.shl 10 11) := by decide

theorem test_decode_index_and_draw :
    decode 0xA300 = .instr (.ldI 0x300) ∧ decode 0xB300 = .instr (.jpV0 0x300) ∧ decode 0xC10F = .instr (.rnd 1 0x0F) ∧
    decode 0xD125 = .instr (.drw 1 2 5) ∧ decode 0xE19E = .instr (.skp 1) ∧ decode 0xE1A1 = .instr (.sknp 1) := by decide

theorem test_decode_family_F :
    decode 0xF307 = .instr (.ldVxDT 3) ∧ decode 0xF30A = .instr (.ldVxK 3) ∧ decode 0xF315 = .instr (.ldDTVx 3) ∧
    decode 0xF318 = .instr (.ldSTVx 3) ∧ decode 0xF31E = .instr (.addI 3) ∧ decode 0xF329 = .instr (.ldF 3) ∧
    decode 0xF333 = .instr (.ldB 3) ∧ decode 0xF355 = .instr (.ldMemVx 3) ∧ decode 0xF365 = .instr (.ldVxMem 3) := by decide

theorem test_decode_unknown_words :
    decode 0x0000 = .unknown 0x0000 ∧ decode 0x0123 = .unknown 0x0123 ∧ decode 0x00E1 = .unknown 0x00E1 ∧
    decode 0x8AB8 = .unknown 0x8AB8 ∧ decode 0x8AB9 = .unknown 0x8AB9 ∧ decode 0x8ABA = .unknown 0x8ABA ∧
    decode 0x8ABB = .unknown 0x8ABB ∧ decode 0x8ABC = .unknown 0x8ABC ∧ decode 0x8ABD = .unknown 0x8ABD ∧
    decode 0x8ABF = .unknown 0x8ABF := by decide

theorem test_decode_unknown_words_EF :
    decode 0xE19F = .unknown 0xE19F ∧ decode 0xE100 = .unknown 0xE100 ∧ decode 0xF300 = .unknown 0xF300 ∧
    decode 0xF3FF = .unknown 0xF3FF ∧ decode 0xF375 = .unknown 0xF375 ∧ decode 0xF385 = .unknown 0xF385 ∧
    decode 0xFFFF = .unknown 0xFFFF := by decide

/-- The same words through the host's door: nbits is 16 in every row of the opcode table. -/
theorem test_decodeTableWord :
    decodeTableWord 16 0x6005 = some (.ldImm 0 5) ∧ decodeTableWord 16 0xD125 = some (.drw 1 2 5) ∧
    decodeTableWord 16 0x0000 = none := by decide

/-- Source S8 with 20_memory.md R61: the bytes 60 05 are the word 0x6005, high byte first. -/
theorem test_bytes_high_first : decodeBytes [0x60, 0x05, 0x70] = some (.instr (.ldImm 0 5), [0x70]) := by decide

/-! ### Reset (10_state.md R37, R36) and the fetch -/

theorem test_reset_memory_holds_the_font :
    State.reset.memRead 0x04F = 0 ∧ State.reset.memRead 0x050 = 0xF0 ∧ State.reset.memRead 0x055 = 0x20 ∧
    State.reset.memRead 0x09F = 0x80 ∧ State.reset.memRead 0x0A0 = 0 := by decide

/-- Source S8, its first cycle: 60 05 at 0x200. -/
theorem test_step_runs_the_word_at_pc : after (boot 0x6005 id) (fun t => t.reg 0 = 5 ∧ t.pc = 0x202) = true := by
  decide

/-- F20: zeroed memory is the unknown word 0x0000. -/
theorem test_F20_unknown_word : after State.reset (fun t => t.report = .decodeError 0x200 0 ∧ t.pc = 0x202) = true := by
  decide

/-! ### Control transfer and skips (95_test_vectors.md section 3.1) -/

theorem test_cls : after (boot 0x00E0 (fun s => { s with fb := Vector.replicate 2048 true }))
    (fun t => t.fb[0] = false ∧ t.fb[2047] = false ∧ t.pc = 0x202) = true := by decide +kernel

theorem test_F5_ret :
    after (boot 0x00EE (fun s => { s with pc := 0x212, sp := 2, stack := s.stack.set 1 0x0206 }))
    (fun t => t.pc = 0x206 ∧ t.sp = 1 ∧ t.stack[1] = 0x206) = true := by decide

theorem test_F6_ret_underflow :
    after (boot 0x00EE id) (fun t => t.report = .stackUnderflow 0x200 0x00EE ∧ t.pc = 0x202 ∧ t.sp = 0) = true := by
  decide

theorem test_F1_jp : after (boot 0x1ABC id) (fun t => t.pc = 0xABC) = true := by decide

theorem test_F7_call_at_the_top :
    after (boot 0x2400 (fun s => { s with pc := 0xFFFE })) (fun t => t.stack[0] = 0 ∧ t.sp = 1 ∧ t.pc = 0x400) = true := by
  decide

theorem test_F4_call_overflow :
    after (boot 0x2300 (fun s => { s with pc := 0x250, sp := 16, stack := s.stack.set 15 0x0AAA }))
    (fun t => t.report = .stackOverflow 0x250 0x2300 ∧ t.pc = 0x252 ∧ t.sp = 16 ∧ t.stack[15] = 0x0AAA) = true := by
  decide

theorem test_F8_seImm_equal :
    after (boot 0x3A07 (fun s => (s.setReg 10 7).jump 0x300)) (fun t => t.pc = 0x304) = true := by decide
theorem test_F19_seImm_wraps : after (boot 0x3000 (fun s => s.jump 0xFFFC)) (fun t => t.pc = 0) = true := by decide
theorem test_F10_sneImm_equal :
    after (boot 0x4A07 (fun s => (s.setReg 10 7).jump 0x300)) (fun t => t.pc = 0x302) = true := by decide
theorem test_F11_sneImm_other :
    after (boot 0x4A07 (fun s => (s.setReg 10 8).jump 0x300)) (fun t => t.pc = 0x304) = true := by decide
theorem test_F13_seReg_other :
    after (boot 0x5120 (fun s => (s.setReg 1 0x33).setReg 2 0x34)) (fun t => t.pc = 0x202) = true := by decide
theorem test_F14_seReg_same : after (boot 0x5330 (fun s => s.setReg 3 9)) (fun t => t.pc = 0x204) = true := by decide
theorem test_F15_sneReg_other :
    after (boot 0x9120 (fun s => (s.setReg 1 0x33).setReg 2 0x34)) (fun t => t.pc = 0x204) = true := by decide
theorem test_F16_sneReg_same : after (boot 0x9330 (fun s => s.setReg 3 9)) (fun t => t.pc = 0x202) = true := by decide

/-! ### Loads and ALU (section 3.2) -/

theorem test_A1_ldImm :
    after (boot 0x61FF (fun s => s.setReg 15 0xAA)) (fun t => t.reg 1 = 0xFF ∧ t.reg 15 = 0xAA) = true := by decide
theorem test_A2_addImm_wraps_without_flag :
    after (boot 0x7101 (fun s => (s.setReg 1 0xFF).setReg 15 0xAA)) (fun t => t.reg 1 = 0 ∧ t.reg 15 = 0xAA) = true := by
  decide
theorem test_A58_addImm_VF : after (boot 0x7F01 (fun s => s.setReg 15 0xFF)) (fun t => t.reg 15 = 0) = true := by
  decide
theorem test_A4_ldReg :
    after (boot 0x8120 (fun s => (s.setReg 1 0x12).setReg 2 0x7E)) (fun t => t.reg 1 = 0x7E ∧ t.reg 2 = 0x7E) = true := by
  decide
theorem test_A59_orReg_VF :
    after (boot 0x8F21 (fun s => (s.setReg 15 0x01).setReg 2 0x80)) (fun t => t.reg 15 = 0x81) = true := by decide
theorem test_A6_andReg :
    after (boot 0x8122 (fun s => (s.setReg 1 0x3C).setReg 2 0x0F)) (fun t => t.reg 1 = 0x0C) = true := by decide
theorem test_A7_xorReg :
    after (boot 0x8123 (fun s => (s.setReg 1 0xFF).setReg 2 0x0F)) (fun t => t.reg 1 = 0xF0) = true := by decide
theorem test_A13_addReg_carry :
    after (boot 0x8124 (fun s => (s.setReg 1 0xC8).setReg 2 0x64)) (fun t => t.reg 1 = 0x2C ∧ t.reg 15 = 1) = true := by
  decide
theorem test_A46_addReg_flag_over_sum :
    after (boot 0x8F24 (fun s => (s.setReg 15 0x03).setReg 2 0x04)) (fun t => t.reg 15 = 0) = true := by decide
theorem test_A16_subReg_equal :
    after (boot 0x8125 (fun s => (s.setReg 1 5).setReg 2 5)) (fun t => t.reg 1 = 0 ∧ t.reg 15 = 0) = true := by decide
theorem test_A52_subReg_VF_as_operand :
    after (boot 0x81F5 (fun s => (s.setReg 1 5).setReg 15 1)) (fun t => t.reg 1 = 4 ∧ t.reg 15 = 1) = true := by decide
theorem test_A22_shr :
    after (boot 0x8126 (fun s => (s.setReg 1 0xFF).setReg 2 0x55)) (fun t => t.reg 1 = 0x7F ∧ t.reg 15 = 1 ∧ t.reg 2 = 0x55)
      = true := by decide
theorem test_A53_shr_VF : after (boot 0x8F06 (fun s => s.setReg 15 3)) (fun t => t.reg 15 = 1) = true := by decide
theorem test_A25_subnReg :
    after (boot 0x8127 (fun s => (s.setReg 1 3).setReg 2 5)) (fun t => t.reg 1 = 2 ∧ t.reg 15 = 1) = true := by decide
theorem test_A27_subnReg_equal :
    after (boot 0x8127 (fun s => (s.setReg 1 5).setReg 2 5)) (fun t => t.reg 1 = 0 ∧ t.reg 15 = 0) = true := by decide
theorem test_A32_shl :
    after (boot 0x812E (fun s => (s.setReg 1 0x81).setReg 2 0x55)) (fun t => t.reg 1 = 2 ∧ t.reg 15 = 1 ∧ t.reg 2 = 0x55)
      = true := by decide
theorem test_A57_shl_VF : after (boot 0x8F0E (fun s => s.setReg 15 0x7F)) (fun t => t.reg 15 = 0) = true := by decide

/-! ### Index load, jump with offset, random, draw (section 3.3) -/

theorem test_X1_ldI : after (boot 0xA300 (fun s => s.setI 0xFFFF)) (fun t => t.i = 0x300) = true := by decide
theorem test_F18_jpV0 : after (boot 0xBFFF (fun s => s.setReg 0 0xFF)) (fun t => t.pc = 0x10FE) = true := by decide
theorem test_X2_rnd :
    after (boot 0xC10F (fun s => { s with rndIn := [0xA7, 0x11] })) (fun t => t.reg 1 = 7 ∧ t.rndIn = [0x11]) = true := by
  decide
theorem test_X8_drw_collision :
    after (boot 0xD121 (fun s => { s with i := 0x300, mem := [(0x300, 0xF0)], fb := s.fb.set 2 true }))
    (fun t => t.fb[0] = true ∧ t.fb[1] = true ∧ t.fb[2] = false ∧ t.fb[3] = true ∧ t.fb[4] = false ∧ t.reg 15 = 1) = true := by
  decide
theorem test_X11_drw_clips :
    after (boot 0xD122 (fun s =>
      { (s.setReg 1 126).setReg 2 63 with i := 0x300, mem := [(0x300, 0xFF), (0x301, 0xFF)] }))
    (fun t => t.fb[2046] = true ∧ t.fb[2047] = true ∧ t.fb[2045] = false ∧ t.fb[1984] = false ∧ t.fb[0] = false ∧
      t.fb[62] = false ∧ t.reg 15 = 0) = true := by decide +kernel

/-! ### Keypad and timers (section 3.4) -/

theorem test_K3_skp_masks :
    after (boot 0xE19E (fun s => { s.setReg 1 0x15 with keys := pressed [5] })) (fun t => t.pc = 0x204) = true := by
  decide
theorem test_K2_skp_released : after (boot 0xE19E (fun s => s.setReg 1 5)) (fun t => t.pc = 0x202) = true := by decide
theorem test_K4_sknp_released : after (boot 0xE1A1 (fun s => s.setReg 1 5)) (fun t => t.pc = 0x204) = true := by decide
theorem test_K5_sknp_pressed :
    after (boot 0xE1A1 (fun s => { s.setReg 1 5 with keys := pressed [5] })) (fun t => t.pc = 0x202) = true := by
  decide
theorem test_K6_ldVxDT :
    after (boot 0xF407 (fun s => s.setDT 0x2A)) (fun t => t.reg 4 = 0x2A ∧ t.dt = 0x29) = true := by decide
theorem test_K8_ldDTVx : after (boot 0xF315 (fun s => s.setReg 3 7)) (fun t => t.dt = 6) = true := by decide
theorem test_K10_ldSTVx_tone :
    after (boot 0xF318 (fun s => s.setReg 3 1)) (fun t => t.st = 0 ∧ t.tone = true) = true := by decide
theorem test_K11_ldSTVx_no_tone :
    after (boot 0xF318 (fun s => s.setReg 3 2)) (fun t => t.st = 1 ∧ t.tone = false) = true := by decide
theorem test_K13_ldVxK_waits :
    after (boot 0xF30A (fun s => (s.setReg 3 0x99).setDT 3)) (fun t => t.pc = 0x200 ∧ t.reg 3 = 0x99 ∧ t.dt = 2) = true := by
  decide
theorem test_K14_ldVxK_least :
    after (boot 0xF30A (fun s => { s with keys := pressed [9, 7] })) (fun t => t.reg 3 = 7 ∧ t.pc = 0x202) = true := by
  decide

/-- Section 3.4, the timer step alone. -/
theorem test_timer_step :
    (((State.reset.setDT 5).setST 1).tickTimers.dt = 4 ∧ ((State.reset.setDT 5).setST 1).tickTimers.st = 0 ∧
      ((State.reset.setDT 5).setST 1).tickTimers.tone = true) ∧
    (State.reset.tickTimers.dt = 0 ∧ State.reset.tickTimers.st = 0 ∧ State.reset.tickTimers.tone = false) ∧
    (((State.reset.setDT 255).setST 255).tickTimers.dt = 254 ∧ ((State.reset.setDT 255).setST 255).tickTimers.st = 254 ∧
      ((State.reset.setDT 255).setST 255).tickTimers.tone = false) := by decide

/-! ### Index and memory (section 3.5) -/

theorem test_M2_addI_wraps :
    after (boot 0xF21E (fun s => (s.setReg 2 1).setI 0xFFFF)) (fun t => t.i = 0 ∧ t.reg 15 = 0) = true := by decide
theorem test_M7_ldF_masks : after (boot 0xF029 (fun s => s.setReg 0 0x1A)) (fun t => t.i = 0x82) = true := by decide
theorem test_M8_ldB :
    after (boot 0xF033 (fun s => (s.setReg 0 157).setI 0x300))
    (fun t => t.memRead 0x300 = 1 ∧ t.memRead 0x301 = 5 ∧ t.memRead 0x302 = 7 ∧ t.i = 0x300) = true := by decide
theorem test_M13_ldB_wraps :
    after (boot 0xF033 (fun s => (s.setReg 0 123).setI 0xFFE))
    (fun t => t.memRead 0xFFE = 1 ∧ t.memRead 0xFFF = 2 ∧ t.memRead 0 = 3) = true := by decide
theorem test_M14_ldMemVx :
    after (boot 0xF255 (fun s =>
      { ((s.setReg 0 0x11).setReg 1 0x22).setReg 2 0x33 with i := 0x400, mem := [(0x403, 9)] }))
    (fun t => t.memRead 0x400 = 0x11 ∧ t.memRead 0x401 = 0x22 ∧ t.memRead 0x402 = 0x33 ∧ t.memRead 0x403 = 9 ∧ t.i = 0x400)
      = true := by decide
theorem test_M19_ldMemVx_wraps :
    after (boot 0xF155 (fun s => ((s.setReg 0 0xAB).setReg 1 0xCD).setI 0x1FFF))
    (fun t => t.memRead 0xFFF = 0xAB ∧ t.memRead 0 = 0xCD ∧ t.i = 0x1FFF) = true := by decide
theorem test_M17_ldVxMem :
    after (boot 0xF265 (fun s => { s.setReg 3 0x99 with i := 0x300, mem := [(0x300, 1), (0x301, 5), (0x302, 7)] }))
    (fun t => t.reg 0 = 1 ∧ t.reg 1 = 5 ∧ t.reg 2 = 7 ∧ t.reg 3 = 0x99 ∧ t.i = 0x300) = true := by decide
theorem test_M18_ldVxMem_all :
    after (boot 0xFF65 (fun s => { s with i := 0x400, mem := [(0x400, 0xF0), (0x40F, 0xFF)] }))
    (fun t => t.reg 0 = 0xF0 ∧ t.reg 1 = 0 ∧ t.reg 15 = 0xFF) = true := by decide

/-! ### Memory's canonical form (log entry 5) and the driver (log entry 6) -/

/-- Writing back what an unlisted address reads as removes the entry: zero, and inside the font its glyph byte. -/
theorem test_memory_canonical :
    ((State.reset.memWrite 0x300 7).memWrite 0x300 0).mem = [] ∧ (State.reset.memWrite 0x50 0xF0).mem = [] ∧
    ((State.reset.memWrite 0x302 2).memWrite 0x1300 1).mem = [(0x300, 1), (0x302, 2)] := by decide

/-- 10_state.md R44: a keypad written in the gap is there in the next cycle. -/
theorem test_driver_writes_keys :
    after (boot 0x6005 (fun s => { s with driver := [[.writeKeys (pressed [15])], []] }))
    (fun t => t.keys[15] = true ∧ t.keys[0] = false ∧ t.driver = [[]]) = true := by decide

/-- 70_reset_and_hazards.md R226: in the external mode a cycle leaves the timers; 10_state.md R40: the driver's TimerTick
counts them down. -/
theorem test_external_timer :
    after (boot 0x6005 (fun s => { s with dt := 5, st := 1, params := { s.params with timerMode := .external } }))
      (fun t => t.dt = 5 ∧ t.st = 1 ∧ t.tone = false) = true ∧
    after (boot 0x6005 (fun s =>
        { s with dt := 5, st := 1, params := { s.params with timerMode := .external }, driver := [[.timerTick]] }))
      (fun t => t.dt = 4 ∧ t.st = 0 ∧ t.tone = true) = true := by decide

/-- 10_state.md R45: of two ticks in one gap from ST = 1 the first gives the tone event and the second does not. -/
theorem test_two_ticks_in_a_gap :
    after (boot 0x6005 (fun s =>
        { s with dt := 5, st := 1, params := { s.params with timerMode := .external }, driver := [[.timerTick, .timerTick]] }))
      (fun t => t.dt = 3 ∧ t.st = 0 ∧ t.tone = false ∧ t.toneLog = [true, false]) = true := by decide

/-! ### Witnesses: states and operands that meet the hypotheses of the statements (the number is the statement's id) -/

theorem witness_O2 : decode 0x6005 = .instr (.ldImm 0 5) := by decide

/-- The first, a middle and the last row of the map, each with a word that matches it. -/
theorem witness_O3 :
    (⟨1, 0xF0FF, 0x00E0⟩ ∈ opcodeMap ∧ (0x0AE0 : Word) &&& 0xF0FF = 0x00E0 ∧ rowNumber (.cls 0xA) = 1) ∧
    (⟨17, 0xF00F, 0x8006⟩ ∈ opcodeMap ∧ (0x8AB6 : Word) &&& 0xF00F = 0x8006 ∧ rowNumber (.shr 10 11) = 17) ∧
    (⟨34, 0xF0FF, 0xF065⟩ ∈ opcodeMap ∧ (0xF365 : Word) &&& 0xF0FF = 0xF065 ∧ rowNumber (.ldVxMem 3) = 34) := by decide

/-- One unknown word of each of the four families, and a word next to each that is known. -/
theorem witness_O4 :
    decode 0x00DF = .unknown 0x00DF ∧ decode 0x00E0 = .instr (.cls 0) ∧
    decode 0x8008 = .unknown 0x8008 ∧ decode 0x8007 = .instr (.subnReg 0 0) ∧
    decode 0xE09D = .unknown 0xE09D ∧ decode 0xE09E = .instr (.skp 0) ∧
    decode 0xFF66 = .unknown 0xFF66 ∧ decode 0xFF65 = .instr (.ldVxMem 15) := by decide

/-- The side condition of the first clause holds of `CLS` in every state and of `RET` with one stack entry. -/
theorem witness_O6 :
    (∀ ign, Instr.cls 3 = .ret ign → 0 < State.reset.sp.val) ∧
    ∃ s : State, ∀ ign, Instr.ret 3 = .ret ign → 0 < s.sp.val :=
  ⟨nofun, { State.reset with sp := 1 }, fun _ _ => by decide⟩

theorem witness_O8 : ∃ s t : State, ∃ i,
    decode (s.memRead s.pc.toNat ++ s.memRead (s.pc.toNat + 1)) = .instr i ∧
    exec i { s with report := .none, tone := false, toneLog := [] } = .next t :=
  ⟨boot 0x6005 id, _, .ldImm 0 5, by decide, rfl⟩

theorem witness_O9 : ∃ u, decode State.reset.fetchWord = .unknown u := ⟨0, by decide⟩

theorem witness_O10 :
    ∃ s : State, s.params.timerMode = .external :=
  ⟨{ State.reset with params := { defaultParams with timerMode := .external } }, rfl⟩

theorem witness_O11 : ∃ u : State,
    State.reset.params.timerMode = .perCycle ∧ State.reset.driver.headD [] = [] ∧ step State.reset = .next u :=
  ⟨_, rfl, rfl, rfl⟩

/-- The three cases of the sound timer: 1, 0 and above 1. -/
theorem witness_O12 :
    (State.reset.setST 1).st.toNat = 1 ∧ State.reset.st.toNat ≠ 1 ∧ (State.reset.setST 2).st.toNat ≠ 1 ∧
    ∃ t, exec (.ldSTVx 3) State.reset = .next t :=
  ⟨by decide, by decide, by decide, _, rfl⟩

theorem witness_O13 :
    (∃ s u : State, s.params.timerMode = .external ∧ s.driver.headD [] = [] ∧ step s = .next u) ∧
    State.reset.params.timerMode = .perCycle :=
  ⟨⟨{ State.reset with params := { defaultParams with timerMode := .external } }, _, rfl, rfl, rfl⟩, rfl⟩

/-- The invariant with nothing listed, and with a byte listed. -/
theorem witness_O15 :
    (∃ u, State.reset.Inv ∧ step State.reset = .next u) ∧
    ∃ s u : State, s.mem ≠ [] ∧ s.Inv ∧ step s = .next u :=
  ⟨⟨_, by unfold State.Inv; decide, rfl⟩,
    boot 0x6005 id, _, by decide, by unfold State.Inv; decide, rfl⟩

/-- The addresses on both sides of the font table, and the last address of memory. -/
theorem witness_O17 :
    (0x04F < 4096 ∧ 0x04F < State.reset.params.fontBase.val) ∧
    (0x0A0 < 4096 ∧ State.reset.params.fontBase.val + 80 ≤ 0x0A0) ∧
    (0xFFF < 4096 ∧ State.reset.params.fontBase.val + 80 ≤ 0xFFF) := by decide

/-- An image of the greatest length, its first and last byte, and an image of one byte more. -/
theorem witness_O18 :
    (List.replicate 3584 (0x12 : Byte)).length ≤ 3584 ∧ 0 < (List.replicate 3584 (0x12 : Byte)).length ∧
    3583 < (List.replicate 3584 (0x12 : Byte)).length ∧ 3584 < (List.replicate 3585 (0x12 : Byte)).length := by
  simp only [List.length_replicate]; omega

theorem witness_O19 : ∃ m m' : Memory, Memory.wf defaultParams m ∧ Memory.wf defaultParams m' ∧ m ≠ [] ∧
    ∀ a, a < 4096 → Memory.read defaultParams m a = Memory.read defaultParams m' a :=
  ⟨[(0x050, 1), (0xFFF, 2)], [(0x050, 1), (0xFFF, 2)], by decide, by decide, by decide, fun _ _ => rfl⟩

theorem witness_O20 : ∃ (s : State) (x : Reg), 1 ≤ x.val ∧ s.i = s.pc + 2 := ⟨State.reset.setI 0x202, 1, by decide⟩

theorem witness_O21 : ∃ (s t : State), exec (.drw 1 2 5) s = .next t := ⟨State.reset, _, rfl⟩

/-- Register files that agree on what each instruction reads and differ elsewhere: an ALU instruction on V3, a shift on the
register its ignored field names, a register dump on the register after the last one, and a load, which reads none. -/
theorem witness_O22 :
    (∀ r ∈ regsRead (.addReg 1 2), (State.reset.v.set 3 0x55)[r.val] = State.reset.reg r) ∧
    (∀ r ∈ regsRead (.shr 1 2), (State.reset.v.set 2 0x55)[r.val] = State.reset.reg r) ∧
    (∀ r ∈ regsRead (.ldMemVx 2), (State.reset.v.set 3 0x55)[r.val] = State.reset.reg r) ∧
    (∀ r ∈ regsRead (.ldVxMem 15), (State.reset.v.set 15 0x55)[r.val] = State.reset.reg r) ∧
    (∀ k : Fin 16, State.reset.v.set k.val 0x55 ≠ State.reset.v) := by decide

theorem witness_O23 :
    (∃ t, exec (.cls 0) State.reset = .next t) ∧
    (∀ x, Instr.cls 0 ≠ .ldDTVx x) ∧ (∀ x, Instr.cls 0 ≠ .ldSTVx x) ∧ (∀ x, Instr.cls 0 ≠ .ldVxDT x) ∧
    0 < (State.reset.setDT 1).dt.toNat ∧ State.reset.dt = 0 ∧ 0 < (State.reset.setST 255).st.toNat ∧ State.reset.st = 0 :=
  ⟨⟨_, rfl⟩, nofun, nofun, nofun, by decide⟩

theorem witness_O24 :
    (∃ u, State.reset.driver.headD [] = [] ∧ step State.reset = .next u) ∧
    (∃ s : State, s.driver = [.writeKeys (pressed [0, 15])] :: []) ∧
    (∀ x, Instr.cls 0 ≠ .skp x) ∧ (∀ x, Instr.cls 0 ≠ .sknp x) ∧ ∀ x, Instr.cls 0 ≠ .ldVxK x :=
  ⟨⟨_, rfl, rfl⟩, ⟨{ State.reset with driver := [[.writeKeys (pressed [0, 15])]] }, rfl⟩, nofun, nofun, nofun⟩

/-- `RET` and `CALL` on both sides of the stack's bounds. -/
theorem witness_O25 :
    (∃ t, exec (.ret 0) State.reset = .next t) ∧ (∃ t, exec (.ret 0) { State.reset with sp := 1 } = .next t) ∧
    (∃ t, exec (.call 0x300) { State.reset with sp := 15 } = .next t) ∧
    ∃ t, exec (.call 0x300) { State.reset with sp := 16 } = .next t :=
  ⟨⟨_, rfl⟩, ⟨_, rfl⟩, ⟨_, rfl⟩, _, rfl⟩

/-- The three reports and a cycle without one, each with a move of the driver in the gap. -/
theorem witness_O26 :
    (∃ s u : State, s.driver ≠ [] ∧ DriverMove.reset ∉ s.driver.headD [] ∧ step s = .next u) ∧
    (∃ s u : State, decode s.fetchWord = .instr (.call 0x300) ∧ s.sp.val = 16 ∧ DriverMove.reset ∉ s.driver.headD [] ∧
      step s = .next u) ∧
    (∃ s u : State, decode s.fetchWord = .instr (.ret 0) ∧ s.sp.val = 0 ∧ DriverMove.reset ∉ s.driver.headD [] ∧
      step s = .next u) ∧
    ∃ s u : State, decode s.fetchWord = .instr (.ldImm 0 5) ∧ DriverMove.reset ∉ s.driver.headD [] ∧ step s = .next u :=
  ⟨⟨{ State.reset with driver := [[.timerTick]] }, _, by decide, by decide, rfl⟩,
    ⟨boot 0x2300 (fun s => { s with sp := 16, driver := [[.timerTick]] }), _, by decide, by decide, by decide, rfl⟩,
    ⟨boot 0x00EE (fun s => { s with driver := [[.timerTick]] }), _, by decide, by decide, by decide, rfl⟩,
    boot 0x6005 (fun s => { s with driver := [[.timerTick]] }), _, by decide, by decide, rfl⟩

/-- `JP V0, 0x300` with V0 = 4 keeps pc even. -/
theorem witness_O27 : ∃ s u : State,
    s.EvenCode ∧ decode s.fetchWord = .instr (.jpV0 0x300) ∧ (∀ i, decode s.fetchWord = .instr i → evenTarget s i) ∧
    step s = .next u := by
  have hd : decode (boot 0xB300 (fun s => s.setReg 0 4)).fetchWord = .instr (.jpV0 0x300) := by decide
  refine ⟨boot 0xB300 (fun s => s.setReg 0 4), _, ?_, hd, fun i hi => ?_, rfl⟩
  · unfold State.EvenCode; decide
  · rw [hd] at hi
    cases hi
    unfold evenTarget
    decide

theorem witness_O28 : (∃ u, step State.reset = .next u) ∧
    ∃ s u : State, s.rndIn = [0xA7] ∧ step s = .next u := ⟨⟨_, rfl⟩, { State.reset with rndIn := [0xA7] }, _, rfl, rfl⟩

theorem witness_O30 :
    (∃ s : State, 0 < s.sp.val ∧ s.sp.val = 1) ∧ (∃ s : State, 0 < s.sp.val ∧ s.sp.val = 16) ∧ State.reset.sp.val = 0 :=
  ⟨⟨{ State.reset with sp := 1 }, by decide⟩, ⟨{ State.reset with sp := 16 }, by decide⟩, by decide⟩

/-- Both bounds of the first clause, with the pushed entry and another one; and the second clause. -/
theorem witness_O32 :
    (∃ (s : State) (k j : Fin 16), s.sp.val < 16 ∧ k.val = s.sp.val ∧ j.val ≠ s.sp.val ∧ s.sp.val = 0) ∧
    (∃ (s : State) (k j : Fin 16), s.sp.val < 16 ∧ k.val = s.sp.val ∧ j.val ≠ s.sp.val ∧ s.sp.val = 15) ∧
    ∃ s : State, s.sp.val = 16 :=
  ⟨⟨State.reset, 0, 1, by decide⟩, ⟨{ State.reset with sp := 15 }, 15, 0, by decide⟩, { State.reset with sp := 16 }, rfl⟩

theorem witness_O33 : ∃ (s : State) (k : Fin 16), s.sp.val < 16 ∧ k.val < s.sp.val ∧ s.sp.val = 15 :=
  ⟨{ State.reset with sp := 15 }, 14, by decide⟩

theorem witness_O34 : State.reset.reg 10 = 0 ∧ State.reset.reg 10 ≠ 7 := by decide

theorem witness_O35 :
    State.reset.reg 1 = State.reset.reg 2 ∧ (State.reset.setReg 1 7).reg 1 ≠ (State.reset.setReg 1 7).reg 2 := by
  decide

/-- The sums 255 and 256, and a destination that is not VF. -/
theorem witness_O38 :
    (∃ s : State, (s.reg 1).toNat + (s.reg 2).toNat = 255) ∧ (∃ s : State, 255 < (s.reg 1).toNat + (s.reg 2).toNat) ∧
    (1 : Reg) ≠ flagReg :=
  ⟨⟨(State.reset.setReg 1 0xC8).setReg 2 0x37, by decide⟩, ⟨(State.reset.setReg 1 0xC8).setReg 2 0x38, by decide⟩,
    by decide⟩

/-- Equal operands, and each of the two greater. -/
theorem witness_O39 :
    (State.reset.reg 1).toNat ≤ (State.reset.reg 2).toNat ∧ (State.reset.reg 2).toNat ≤ (State.reset.reg 1).toNat ∧
    (∃ s : State, (s.reg 2).toNat < (s.reg 1).toNat) ∧ (∃ s : State, (s.reg 1).toNat < (s.reg 2).toNat) ∧
    (1 : Reg) ≠ flagReg :=
  ⟨by decide, by decide, ⟨State.reset.setReg 1 1, by decide⟩,
    ⟨State.reset.setReg 2 255, by decide⟩, by decide⟩

theorem witness_O40 : (0 : Reg) ≠ flagReg ∧ (14 : Reg) ≠ flagReg := by decide

theorem witness_O43 :
    (∃ s : State, s.rndIn = [0xA7, 0x11]) ∧ State.reset.rndIn = [] ∧ (0x0F : Byte).getLsbD 4 = false ∧
    (0x0F : Byte).getLsbD 7 = false :=
  ⟨⟨{ State.reset with rndIn := [0xA7, 0x11] }, rfl⟩, by decide⟩

/-- A sprite bit on a set cell, and one on a clear screen, at the corner of X11. -/
theorem witness_O44 :
    (∃ s : State, ∃ cx cy, spriteCovers s 1 2 2 cx cy ∧ s.pixel cx cy = true) ∧
    ∃ s : State, (∃ cx cy, spriteCovers s 1 2 2 cx cy) ∧ ∀ cx cy, spriteCovers s 1 2 2 cx cy → s.pixel cx cy = false :=
  ⟨⟨{ (State.reset.setReg 1 62).setReg 2 31 with mem := [(0, 0xFF)], fb := Vector.replicate 2048 true }, 63, 31,
      ⟨0, 1, by decide, by decide, by decide, by decide, by decide⟩, by decide +kernel⟩,
    { (State.reset.setReg 1 62).setReg 2 31 with mem := [(0, 0xFF)] },
      ⟨63, 31, 0, 1, by decide, by decide, by decide, by decide, by decide⟩,
      fun cx cy _ => by simp only [State.pixel]; exact Vector.getElem_replicate _⟩

theorem witness_O45 : ∃ s : State, (1 : Reg) ≠ flagReg ∧ (2 : Reg) ≠ flagReg ∧
    (∃ cx cy, spriteCovers s 1 2 1 cx cy) ∧ ∀ cx cy, spriteCovers s 1 2 1 cx cy → s.pixel cx cy = false :=
  ⟨{ State.reset with mem := [(0, 0xFF)] }, by decide, by decide,
    ⟨7, 0, 0, 7, by decide, by decide, by decide, by decide, by decide⟩,
    fun cx cy _ => by simp only [State.pixel]; exact Vector.getElem_replicate _⟩

/-- The masked key up and down; the register holds 0x1F, the last key after masking. -/
theorem witness_O46 :
    (∃ s : State, (15 : Fin 16).val = (s.reg 1).toNat % 16 ∧ s.keys[15] = false) ∧
    ∃ s : State, (15 : Fin 16).val = (s.reg 1).toNat % 16 ∧ s.keys[15] = true :=
  ⟨⟨State.reset.setReg 1 0x1F, by decide⟩,
    { State.reset.setReg 1 0x1F with keys := pressed [15] }, by decide⟩

/-- No key; the last key alone; two keys, of which 7 is the least. -/
theorem witness_O48 :
    (∀ k : Fin 16, State.reset.keys[k.val] = false) ∧
    ((pressed [15])[15] = true ∧ ∀ j : Fin 16, j.val < 15 → (pressed [15])[j.val] = false) ∧
    ((pressed [9, 7])[7] = true ∧ ∀ j : Fin 16, j.val < 7 → (pressed [9, 7])[j.val] = false) := by decide

/-- The least and the greatest register of a run, for x = 0 and x = 15. -/
theorem witness_O52_O53 : (0 : Reg).val ≤ (0 : Reg).val ∧ (0 : Reg).val ≤ (15 : Reg).val ∧ (15 : Reg).val ≤ (15 : Reg).val := by
  decide

/-- Gaps of one tick and of two. -/
theorem witness_O56 :
    (∃ s u : State, s.params.timerMode = .external ∧ s.driver.headD [] = List.replicate (0 + 1) .timerTick ∧
      step s = .next u) ∧
    ∃ s u : State, s.params.timerMode = .external ∧ s.driver.headD [] = List.replicate (1 + 1) .timerTick ∧
      step s = .next u :=
  ⟨⟨{ State.reset with st := 1, params := { defaultParams with timerMode := .external }, driver := [[.timerTick]] }, _,
      rfl, rfl, rfl⟩,
    { State.reset with st := 2, params := { defaultParams with timerMode := .external },
                       driver := [[.timerTick, .timerTick]] }, _, rfl, rfl, rfl⟩

/-- A gap with a Reset between two other moves, after a cycle that reports. -/
theorem witness_O57 : ∃ s u : State,
    s.driver = [[.timerTick, .reset, .writeKeys (pressed [3])]] ∧ DriverMove.reset ∈ s.driver.headD [] ∧
    step s = .next u :=
  ⟨{ State.reset with driver := [[.timerTick, .reset, .writeKeys (pressed [3])]] }, _, rfl, by decide, rfl⟩

/-- A destination that is not VF, with a sum above 255, and VF itself. -/
theorem witness_O58 : (1 : Reg) ≠ flagReg ∧ 255 < ((State.reset.setReg 1 0xFF).reg 1).toNat + (1 : Byte).toNat ∧
    ((15 : Reg) = flagReg) := by decide

end Sys2Proof.Tests
end

section
/-! SUPPORT. What each instruction may change (00_scope.md R18): one frame lemma for each operation on the state, and from
them the frame of every instruction. -/

namespace Sys2Proof.Machine

/-! ### The frames of the state's operations -/

section
variable {c : Changes} {s t : State}

theorem Frame.refl (c : Changes) (s : State) : Frame c s s := by simp [Frame]

/-! A frame says nothing about pc. -/

theorem Frame.advance (h : Frame c s t) : Frame c s t.advance := h
theorem Frame.advanceSkipping (h : Frame c s t) (b : Bool) : Frame c s (t.advanceSkipping b) := h
theorem Frame.jump (h : Frame c s t) (a : Word) : Frame c s (t.jump a) := h

/-! An operation keeps everything but the piece of state it writes, so it fits every frame that names this piece. -/

theorem State.frame_setReg {x : Reg} (hx : x ∈ c.regs) (b : Byte) : Frame c s (s.setReg x b) := by
  have hreg : ∀ r ∉ c.regs, r ≠ x := fun r hr h => hr (h ▸ hx)
  simp +contextual [Frame, hreg]

theorem State.frame_setRegAndFlag {x : Reg} (hx : x ∈ c.regs) (hf : flagReg ∈ c.regs) (b : Byte) (f : Bool) :
    Frame c s (s.setRegAndFlag x b f) := by
  have hreg : ∀ r ∉ c.regs, r ≠ flagReg ∧ r ≠ x := fun r hr => ⟨fun h => hr (h ▸ hf), fun h => hr (h ▸ hx)⟩
  simp +contextual [Frame, hreg]

theorem State.frame_loadRegs {bytes : List Byte} (hc : ∀ r : Reg, r.val < bytes.length → r ∈ c.regs) :
    Frame c s (s.loadRegs bytes) := by
  have hreg : ∀ r ∉ c.regs, bytes[r.val]? = none :=
    fun r hr => List.getElem?_eq_none (Nat.le_of_not_lt fun h => hr (hc r h))
  simp +contextual [Frame, hreg]

theorem State.frame_drawSprite (hf : flagReg ∈ c.regs) (hd : c.display = true) (x0 y0 : Nat) (rows : List Byte) :
    Frame c s (s.drawSprite x0 y0 rows) := by
  have hreg : ∀ r ∉ c.regs, r ≠ flagReg := fun r hr h => hr (h ▸ hf)
  simp +contextual [Frame, hreg, hd]

theorem State.frame_clearDisplay (hc : c.display = true) : Frame c s s.clearDisplay := by simp [Frame, hc]
theorem State.frame_setI (hc : c.index = true) (a : Word) : Frame c s (s.setI a) := by simp [Frame, hc]
theorem State.frame_setDT (hc : c.delay = true) (b : Byte) : Frame c s (s.setDT b) := by simp [Frame, hc]
theorem State.frame_setST (hc : c.sound = true) (b : Byte) : Frame c s (s.setST b) := by simp [Frame, hc]
theorem State.frame_pop (hc : c.stack = true) : Frame c s s.pop := by simp [Frame, hc]

theorem State.frame_push (hc : c.stack = true) (a : Word) (h : s.sp.val < 16) : Frame c s (s.push a h) := by
  simp [Frame, hc]

theorem State.frame_reportAndAdvance (hc : c.report = true) (kind : Word → Word → Report) (w : Word) :
    Frame c s (s.reportAndAdvance kind w) := by simp [Frame, hc]

theorem State.frame_memWriteBytes {addr : Nat} {bytes : List Byte} (hc : addressRun addr bytes.length = c.stores) :
    Frame c s (s.memWriteBytes addr bytes) := by
  have hmem : ∀ a, (∀ b ∈ c.stores, a % 4096 ≠ b % 4096) → (s.memWriteBytes addr bytes).memRead a = s.memRead a :=
    fun a ha => s.memRead_memWriteBytes_other fun k hk =>
      (ha (addr + k) (hc ▸ List.mem_map.mpr ⟨k, List.mem_range.mpr hk, rfl⟩)).symm
  simpa [Frame] using hmem

end

/-! ### The three instructions that have two outcomes -/

section
variable {s t : State}

theorem execRet_of_pos (ign : Nibble) (h : 0 < s.sp.val) : execRet ign s = .next (s.pop.jump (s.stackTop h)) :=
  dif_pos h

theorem execRet_of_not_pos (ign : Nibble) (h : ¬ 0 < s.sp.val) :
    execRet ign s = .next (s.reportAndAdvance .stackUnderflow (encode (.ret ign))) :=
  dif_neg h

theorem execCall_of_lt (nnn : Addr12) (h : s.sp.val < 16) :
    execCall nnn s = .next ((s.push (nextPc s.pc) h).jump (addrOf nnn)) :=
  dif_pos h

theorem execCall_of_not_lt (nnn : Addr12) (h : ¬ s.sp.val < 16) :
    execCall nnn s = .next (s.reportAndAdvance .stackOverflow (encode (.call nnn))) :=
  dif_neg h

theorem execLdVxK_of_some (x : Reg) {k : Fin 16} (h : s.firstKey = some k) :
    execLdVxK x s = .next (s.setReg x (BitVec.ofNat 8 k.val)).advance := by
  simp only [execLdVxK, h]

/-- With no key pressed the wait leaves the whole state as it is (43_keypad_and_timers.md R175). -/
theorem execLdVxK_of_none (x : Reg) (h : s.firstKey = none) : execLdVxK x s = .next s := by
  simp only [execLdVxK, h]; rfl

theorem execRet_cases {ign : Nibble} (h : execRet ign s = .next t) :
    (∃ hsp : 0 < s.sp.val, t = s.pop.jump (s.stackTop hsp)) ∨
      (¬ 0 < s.sp.val ∧ t = s.reportAndAdvance .stackUnderflow (encode (.ret ign))) := by
  by_cases hsp : 0 < s.sp.val
  · rw [execRet_of_pos ign hsp] at h; cases h; exact .inl ⟨hsp, rfl⟩
  · rw [execRet_of_not_pos ign hsp] at h; cases h; exact .inr ⟨hsp, rfl⟩

theorem execCall_cases {nnn : Addr12} (h : execCall nnn s = .next t) :
    (∃ hsp : s.sp.val < 16, t = (s.push (nextPc s.pc) hsp).jump (addrOf nnn)) ∨
      (¬ s.sp.val < 16 ∧ t = s.reportAndAdvance .stackOverflow (encode (.call nnn))) := by
  by_cases hsp : s.sp.val < 16
  · rw [execCall_of_lt nnn hsp] at h; cases h; exact .inl ⟨hsp, rfl⟩
  · rw [execCall_of_not_lt nnn hsp] at h; cases h; exact .inr ⟨hsp, rfl⟩

theorem execLdVxK_cases {x : Reg} (h : execLdVxK x s = .next t) :
    (∃ k, s.firstKey = some k ∧ t = (s.setReg x (BitVec.ofNat 8 k.val)).advance) ∨ (s.firstKey = none ∧ t = s) := by
  cases hk : s.firstKey with
  | some k => rw [execLdVxK_of_some x hk] at h; cases h; exact .inl ⟨k, rfl, rfl⟩
  | none => rw [execLdVxK_of_none x hk] at h; cases h; exact .inr ⟨rfl, rfl⟩

end

/-! ### The frame of an instruction -/

/-- What an instruction, run in this state, may change beside pc (00_scope.md R18). -/
def changesOf (s : State) : Instr → Changes
  | .cls _ => { display := true }
  | .ret _ => { stack := decide (0 < s.sp.val), report := decide (¬ 0 < s.sp.val) }
  | .call _ => { stack := decide (s.sp.val < 16), report := decide (¬ s.sp.val < 16) }
  | .ldI _ => { index := true }
  | .addI _ => { index := true }
  | .ldF _ => { index := true }
  | .drw _ _ _ => { regs := [flagReg], display := true }
  | .ldDTVx _ => { delay := true }
  | .ldSTVx _ => { sound := true }
  | .ldB _ => { stores := addressRun s.indexAddress 3 }
  | .ldMemVx x => { stores := addressRun s.indexAddress (x.val + 1) }
  | i => { regs := regsWritten s i }

section
variable {i : Instr} {s t : State}

@[simp] theorem changesOf_regs (s : State) (i : Instr) : (changesOf s i).regs = regsWritten s i := by
  cases i <;> rfl

@[simp] theorem changesOf_tone (s : State) (i : Instr) : (changesOf s i).tone = false := by
  cases i <;> rfl

/-- The frame rule 00_scope.md R18: every instruction changes pc and what `changesOf` names, and nothing else. -/
theorem exec_frame (h : exec i s = .next t) : Frame (changesOf s i) s t := by
  cases i with
  | cls => cases h; exact (State.frame_clearDisplay rfl).advance
  | ret =>
    obtain ⟨hsp, rfl⟩ | ⟨hsp, rfl⟩ := execRet_cases h
    · exact (State.frame_pop (decide_eq_true hsp)).jump _
    · exact State.frame_reportAndAdvance (decide_eq_true hsp) _ _
  | call =>
    obtain ⟨hsp, rfl⟩ | ⟨hsp, rfl⟩ := execCall_cases h
    · exact (State.frame_push (decide_eq_true hsp) _ hsp).jump _
    · exact State.frame_reportAndAdvance (decide_eq_true hsp) _ _
  | jp | jpV0 => cases h; exact (Frame.refl _ s).jump _
  | seImm | sneImm | seReg | sneReg | skp | sknp => cases h; exact (Frame.refl _ s).advanceSkipping _
  | ldImm | addImm | ldReg | orReg | andReg | xorReg | rnd | ldVxDT =>
    cases h; exact (State.frame_setReg List.mem_cons_self _).advance
  | addReg | subReg | shr | subnReg | shl =>
    cases h
    exact (State.frame_setRegAndFlag List.mem_cons_self (List.mem_cons_of_mem _ List.mem_cons_self) _ _).advance
  | ldI | addI | ldF => cases h; exact (State.frame_setI rfl _).advance
  | drw => cases h; exact (State.frame_drawSprite List.mem_cons_self rfl _ _ _).advance
  | ldDTVx => cases h; exact (State.frame_setDT rfl _).advance
  | ldSTVx => cases h; exact (State.frame_setST rfl _).advance
  | ldVxK x =>
    obtain ⟨k, hk, rfl⟩ | ⟨-, rfl⟩ := execLdVxK_cases h
    · have hpressed : ∃ k : Fin 16, s.keys[k.val] = true := ⟨k, (State.firstKey_eq_some hk).1⟩
      have hx : x ∈ (changesOf s (.ldVxK x)).regs := by simp [regsWritten, hpressed]
      exact (State.frame_setReg hx _).advance
    · exact Frame.refl _ _
  | ldB => cases h; exact (State.frame_memWriteBytes rfl).advance
  | ldMemVx x => cases h; exact (State.frame_memWriteBytes (congrArg _ (s.length_regsUpTo x))).advance
  | ldVxMem x =>
    cases h
    refine (State.frame_loadRegs fun r hr => State.mem_regRange.mpr ?_).advance
    rw [State.bytesUpTo, State.length_memReadBytes] at hr
    omega

/-- Beside `LD B` and `LD [I]` no instruction touches the list that holds memory: `Frame` says this of every byte read. -/
theorem exec_mem (h : exec i s = .next t) : t.mem = s.mem ∨ (∃ x, i = .ldB x) ∨ ∃ x, i = .ldMemVx x := by
  cases i with
  | ldB x => exact .inr (.inl ⟨x, rfl⟩)
  | ldMemVx x => exact .inr (.inr ⟨x, rfl⟩)
  | ret => obtain ⟨_, rfl⟩ | ⟨_, rfl⟩ := execRet_cases h <;> exact .inl rfl
  | call => obtain ⟨_, rfl⟩ | ⟨_, rfl⟩ := execCall_cases h <;> exact .inl rfl
  | ldVxK => obtain ⟨_, _, rfl⟩ | ⟨_, rfl⟩ := execLdVxK_cases h <;> exact .inl rfl
  | _ => cases h; exact .inl rfl

end

/-! ### The instructions whose frame names a piece of state -/

section
variable (s : State) (i : Instr)

theorem changesOf_index :
    (changesOf s i).index = false ∨ (∃ nnn, i = .ldI nnn) ∨ (∃ x, i = .addI x) ∨ ∃ x, i = .ldF x := by
  cases i with
  | ldI nnn => exact .inr (.inl ⟨nnn, rfl⟩)
  | addI x => exact .inr (.inr (.inl ⟨x, rfl⟩))
  | ldF x => exact .inr (.inr (.inr ⟨x, rfl⟩))
  | _ => exact .inl rfl

theorem changesOf_display : (changesOf s i).display = false ∨ (∃ ign, i = .cls ign) ∨ ∃ x y n, i = .drw x y n := by
  cases i with
  | cls ign => exact .inr (.inl ⟨ign, rfl⟩)
  | drw x y n => exact .inr (.inr ⟨x, y, n, rfl⟩)
  | _ => exact .inl rfl

theorem changesOf_delay : (changesOf s i).delay = false ∨ ∃ x, i = .ldDTVx x := by
  cases i with
  | ldDTVx x => exact .inr ⟨x, rfl⟩
  | _ => exact .inl rfl

theorem changesOf_sound : (changesOf s i).sound = false ∨ ∃ x, i = .ldSTVx x := by
  cases i with
  | ldSTVx x => exact .inr ⟨x, rfl⟩
  | _ => exact .inl rfl

theorem changesOf_stack_report :
    ((changesOf s i).stack = false ∧ (changesOf s i).report = false) ∨ (∃ nnn, i = .call nnn) ∨ ∃ ign, i = .ret ign := by
  cases i with
  | call nnn => exact .inr (.inl ⟨nnn, rfl⟩)
  | ret ign => exact .inr (.inr ⟨ign, rfl⟩)
  | _ => exact .inl ⟨rfl, rfl⟩

/-- The instructions that write VF: those that write it as a flag, and those that have it among their destinations. -/
theorem eq_of_flagReg_mem_regsWritten (h : flagReg ∈ regsWritten s i) :
    (∃ x y, i = .addReg x y ∨ i = .subReg x y ∨ i = .subnReg x y) ∨ (∃ x ign, i = .shr x ign ∨ i = .shl x ign) ∨
    (∃ x y n, i = .drw x y n) ∨
    (∃ kk, i = .ldImm flagReg kk ∨ i = .addImm flagReg kk ∨ i = .rnd flagReg kk) ∨
    (∃ y, i = .ldReg flagReg y ∨ i = .orReg flagReg y ∨ i = .andReg flagReg y ∨ i = .xorReg flagReg y) ∨
    i = .ldVxDT flagReg ∨ i = .ldVxK flagReg ∨ i = .ldVxMem flagReg := by
  cases i with
  | addReg | subReg | subnReg | shr | shl | drw => simp
  | ldImm | addImm | rnd | ldReg | orReg | andReg | xorReg | ldVxDT =>
    obtain rfl := List.mem_singleton.mp h
    simp
  | ldVxK x =>
    simp only [regsWritten] at h
    split at h
    · obtain rfl := List.mem_singleton.mp h
      simp
    · cases h
  | ldVxMem x =>
    obtain rfl : x = flagReg := Fin.le_antisymm (Fin.le_last x) (State.mem_regRange.mp h)
    simp
  | _ => cases h

end

/-! ### Every instruction completes, and each writes only its own state (00_scope.md R17, R18) -/

theorem exec_total (i : Instr) (s : State) : ∃ t, exec i s = .next t := by
  cases i with
  | ret ign =>
    by_cases h : 0 < s.sp.val
    · exact ⟨_, execRet_of_pos ign h⟩
    · exact ⟨_, execRet_of_not_pos ign h⟩
  | call nnn =>
    by_cases h : s.sp.val < 16
    · exact ⟨_, execCall_of_lt nnn h⟩
    · exact ⟨_, execCall_of_not_lt nnn h⟩
  | ldVxK x =>
    cases h : s.firstKey with
    | some k => exact ⟨_, execLdVxK_of_some x h⟩
    | none => exact ⟨_, execLdVxK_of_none x h⟩
  | _ => exact ⟨_, rfl⟩

theorem execDecoded_total (d : Decoded) (s : State) : ∃ t, execDecoded d s = .next t := by
  cases d with
  | instr i => exact exec_total i s
  | unknown w => exact ⟨_, rfl⟩

/-- Settles O14: the meaning of whatever the decoder answers is total, and the end of the cycle adds no stop. -/
theorem everyCycleCompletes : Obligations.EveryCycleCompletes := by
  refine ⟨exec_total, fun s => ?_⟩
  obtain ⟨t, ht⟩ := execDecoded_total (decode s.fetchWord) s.beginCycle
  exact ⟨_, step_eq_next.mpr ⟨t, ht, rfl⟩⟩

/-- Settles O21, from the frame of the instruction and the list of instructions whose frame names the piece of state. -/
theorem onlyTheNamedInstructionsWriteEachState : Obligations.OnlyTheNamedInstructionsWriteEachState := by
  intro i s t h
  obtain ⟨hregs, hindex, hstack, hdelay, hsound, hdisplay, -, hreport, htone, hkeys, hparams, hrndIn, hrndCount,
    hdriver⟩ := exec_frame h
  obtain ⟨htone, htoneLog⟩ := htone (changesOf_tone s i)
  have hflag : flagReg ∉ regsWritten s i → t.reg flagReg = s.reg flagReg := by
    rw [← changesOf_regs s i]; exact hregs flagReg
  exact ⟨(changesOf_index s i).imp_left hindex, (changesOf_display s i).imp_left hdisplay,
    (changesOf_delay s i).imp_left hdelay, (changesOf_sound s i).imp_left hsound,
    (changesOf_stack_report s i).imp_left fun ⟨h1, h2⟩ => ⟨(hstack h1).1, (hstack h1).2, hreport h2⟩,
    exec_mem h, hkeys, hparams, htone, htoneLog, hrndIn, hrndCount, hdriver,
    (Classical.em (flagReg ∈ regsWritten s i)).symm.imp hflag (eq_of_flagReg_mem_regsWritten s i)⟩

end Sys2Proof.Machine
end

section
/-! SUPPORT. What a whole step keeps: the instruction by its frame, the driver's gap by what one move can do. -/

namespace Sys2Proof.Machine

/-! ### What one move, and one gap, of the driver can do (10_state.md R48) -/

/-- All that a move of the driver can do: it is a Reset, or it changes only the keypad, memory, the timers and the tone
outputs. -/
theorem applyMove_cases (s : State) (m : DriverMove) :
    (m = .reset ∧ applyMove s m = s.resetCore) ∨
      ∃ keys mem dt st tone toneLog, applyMove s m =
        { s with keys := keys, mem := mem, dt := dt, st := st, tone := tone, toneLog := toneLog } := by
  cases m with
  | writeKeys keys => exact .inr ⟨keys, s.mem, s.dt, s.st, s.tone, s.toneLog, rfl⟩
  | writeMemory a b => exact .inr ⟨s.keys, (s.memWrite a.toNat b).mem, s.dt, s.st, s.tone, s.toneLog, rfl⟩
  | loadRom image =>
    refine .inr ⟨s.keys, (s.loadRom image).mem, s.dt, s.st, s.tone, s.toneLog, ?_⟩
    simp only [applyMove, State.loadRom]
    split <;> rfl
  | timerTick =>
    refine .inr ⟨s.keys, s.mem, s.driverTick.dt, s.driverTick.st, s.driverTick.tone, s.driverTick.toneLog, ?_⟩
    simp only [applyMove, State.driverTick]
    split <;> rfl
  | reset => exact .inl ⟨rfl, rfl⟩

/-- No move touches the environment's queues or the parameters, which Reset keeps as well (log entries 4, 6). -/
theorem applyMove_environment (s : State) (m : DriverMove) :
    (applyMove s m).rndIn = s.rndIn ∧ (applyMove s m).rndCount = s.rndCount ∧ (applyMove s m).driver = s.driver ∧
      (applyMove s m).params = s.params := by
  obtain ⟨-, h⟩ | ⟨keys, mem, dt, st, tone, toneLog, h⟩ := applyMove_cases s m <;> rw [h] <;> exact ⟨rfl, rfl, rfl, rfl⟩

theorem applyMoves_environment (s : State) (moves : List DriverMove) :
    (applyMoves s moves).rndIn = s.rndIn ∧ (applyMoves s moves).rndCount = s.rndCount ∧
      (applyMoves s moves).driver = s.driver ∧ (applyMoves s moves).params = s.params := by
  refine applyMoves_keeps (P := fun t => t.rndIn = s.rndIn ∧ t.rndCount = s.rndCount ∧ t.driver = s.driver ∧
    t.params = s.params) (fun t m ht => ?_) moves ⟨rfl, rfl, rfl, rfl⟩
  obtain ⟨hrndIn, hrndCount, hdriver, hparams⟩ := applyMove_environment t m
  rwa [hrndIn, hrndCount, hdriver, hparams]

theorem applyMove_report_none {s : State} (m : DriverMove) (h : s.report = .none) :
    (applyMove s m).report = .none := by
  obtain ⟨-, hm⟩ | ⟨keys, mem, dt, st, tone, toneLog, hm⟩ := applyMove_cases s m <;> rw [hm]
  · rfl
  · exact h

/-- A Reset anywhere in the gap clears the report, and no later move sets it again. -/
theorem applyMoves_report_of_reset_mem {moves : List DriverMove} (h : DriverMove.reset ∈ moves) (s : State) :
    (applyMoves s moves).report = .none := by
  induction moves generalizing s with
  | nil => cases h
  | cons m rest ih =>
    rcases List.mem_cons.mp h with rfl | h
    · exact applyMoves_keeps (P := fun t => t.report = .none) (fun _ => applyMove_report_none) rest rfl
    · exact ih h _

theorem State.finishCycle_eq (s : State) :
    s.finishCycle = applyMoves { s.endCycle with driver := s.driver.tail } (s.driver.headD []) := by
  rw [State.finishCycle, State.driverTurn_eq, State.endCycle_driver]

/-! ### What is executed in a cycle has a frame (00_scope.md R18) -/

section
variable {d : Decoded} {s t : State}

theorem execDecoded_frame (h : execDecoded d s = .next t) : ∃ c : Changes, c.tone = false ∧ Frame c s t := by
  cases d with
  | instr i => exact ⟨_, changesOf_tone s i, exec_frame h⟩
  | unknown w => cases h; exact ⟨{ report := true }, rfl, State.frame_reportAndAdvance rfl _ _⟩

/-- The inputs of the machine, and the log of the tone outputs, are as they were after execution. -/
theorem execDecoded_environment (h : execDecoded d s = .next t) :
    t.keys = s.keys ∧ t.params = s.params ∧ t.rndIn = s.rndIn ∧ t.rndCount = s.rndCount ∧ t.driver = s.driver ∧
      t.toneLog = s.toneLog := by
  obtain ⟨c, hc, -, -, -, -, -, -, -, -, htone, hkeys, hparams, hrndIn, hrndCount, hdriver⟩ := execDecoded_frame h
  exact ⟨hkeys, hparams, hrndIn, hrndCount, hdriver, (htone hc).2⟩

end

/-- All that a step can do, with the driver's gap as the script lists it before the cycle. -/
theorem step_cases {s u : State} (h : step s = .next u) :
    ∃ t, execDecoded (decode s.fetchWord) s.beginCycle = .next t ∧
      u = applyMoves { t.endCycle with driver := s.driver.tail } (s.driver.headD []) := by
  obtain ⟨t, ht, rfl⟩ := step_eq_next.mp h
  obtain ⟨-, -, -, -, hdriver, -⟩ := execDecoded_environment ht
  exact ⟨t, ht, by rw [State.finishCycle_eq, hdriver]; rfl⟩

/-- Settles O28: the cycle's end uses the random byte, and neither the instruction nor the gap touches these fields. -/
theorem eachCycleUsesOneRandomByte : Obligations.EachCycleUsesOneRandomByte := by
  intro s u h
  obtain ⟨t, ht, rfl⟩ := step_cases h
  obtain ⟨-, hparams, hrndIn, hrndCount, -, -⟩ := execDecoded_environment ht
  obtain ⟨hrndIn', hrndCount', hdriver', hparams'⟩ :=
    applyMoves_environment { t.endCycle with driver := s.driver.tail } (s.driver.headD [])
  rw [hrndIn', hrndCount', hdriver', hparams']
  simp [hparams, hrndIn, hrndCount]

/-- Settles O57: what the cycle reported is not looked at. -/
theorem resetInTheGapClearsTheReport : Obligations.ResetInTheGapClearsTheReport := by
  intro s u hreset h
  obtain ⟨t, -, rfl⟩ := step_cases h
  exact applyMoves_report_of_reset_mem hreset _

/-! ### Memory stays canonical (log entry 5) -/

theorem exec_keeps_inv {i : Instr} {s t : State} (hs : s.Inv) (h : exec i s = .next t) : t.Inv := by
  obtain ⟨-, -, -, -, -, -, -, -, -, -, hparams, -⟩ := exec_frame h
  rw [State.Inv, hparams]
  obtain hmem | ⟨x, rfl⟩ | ⟨x, rfl⟩ := exec_mem h
  · rwa [hmem]
  · cases h; exact Memory.wf_writeBytes hs _
  · cases h; exact Memory.wf_writeBytes hs _

theorem execDecoded_keeps_inv {d : Decoded} {s t : State} (hs : s.Inv) (h : execDecoded d s = .next t) : t.Inv := by
  cases d with
  | instr i => exact exec_keeps_inv hs h
  | unknown w => cases h; exact hs

/-- Settles O15: canonical memory is kept by what is executed, by the cycle's end and by every move of the gap. -/
theorem everyStepKeepsMemoryCanonical : Obligations.EveryStepKeepsMemoryCanonical := by
  intro s u hs h
  obtain ⟨t, ht, rfl⟩ := step_cases h
  have hexec : t.Inv := execDecoded_keeps_inv (s := s.beginCycle) hs ht
  have hend : Memory.wf t.endCycle.params t.endCycle.mem := by
    rwa [State.endCycle_params, State.endCycle_mem]
  exact applyMoves_keeps applyMove_wf _ hend

/-- Settles O16: reset leaves the empty list. -/
theorem resetMemoryIsCanonical : Obligations.ResetMemoryIsCanonical :=
  ⟨fun _ => Memory.wf_nil, Memory.wf_nil⟩

/-- In a list whose addresses rise strictly, a cell that is listed is the one that is found. -/
theorem Memory.find_of_mem {m : Memory} (hs : m.Pairwise (fun c d => c.1 < d.1)) {c : Host.Cell} (hc : c ∈ m) :
    m.find? (fun d => d.1 == c.1) = some c := by
  induction m with
  | nil => cases hc
  | cons d rest ih =>
    obtain ⟨hd, hrest⟩ := List.pairwise_cons.mp hs
    rcases List.mem_cons.mp hc with rfl | hc
    · simp
    · have hne : d.1 ≠ c.1 := (hd c hc).ne
      simpa [hne] using ih hrest hc

/-- A canonical memory lists exactly the cells below 4096 whose byte is not what the address reads as unlisted. -/
theorem Memory.mem_iff_read {p : Params} {m : Memory} (h : Memory.wf p m) (a : Nat) (b : Byte) :
    (a, b) ∈ m ↔ a < 4096 ∧ Memory.read p m a = b ∧ b ≠ Memory.unlisted p a := by
  obtain ⟨hs, hc⟩ := h
  constructor
  · intro hm
    have hread : Memory.read p m a = b := by simp only [Memory.read, Memory.find_of_mem hs hm]
    exact ⟨(hc _ hm).1, hread, (hc _ hm).2⟩
  · rintro ⟨-, hread, hb⟩
    cases hfind : m.find? (fun d => d.1 == a) with
    | none => simp only [Memory.read, hfind] at hread; exact absurd hread.symm hb
    | some d =>
      simp only [Memory.read, hfind] at hread
      have hda : d.1 = a := by simpa using List.find?_some hfind
      have hd : d = (a, b) := Prod.ext hda hread
      exact hd ▸ List.mem_of_find?_eq_some hfind

theorem Memory.nodup_of_wf {p : Params} {m : Memory} (h : Memory.wf p m) : m.Nodup :=
  h.1.imp fun hlt e => hlt.ne (congrArg Prod.fst e)

/-- Settles O19: the reads determine which cells are listed, and the rising addresses their order. -/
theorem canonicalMemoriesWithEqualReadsAreEqual : Obligations.CanonicalMemoriesWithEqualReadsAreEqual := by
  intro p m m' h h' hread
  have hmem : ∀ c, c ∈ m ↔ c ∈ m' := fun ⟨a, b⟩ => by
    rw [Memory.mem_iff_read h, Memory.mem_iff_read h']
    exact and_congr_right fun ha => by rw [hread a ha]
  have hperm : m.Perm m' := (List.perm_ext_iff_of_nodup (Memory.nodup_of_wf h) (Memory.nodup_of_wf h')).mpr hmem
  exact hperm.eq_of_pairwise (fun c d _ _ hcd hdc => absurd hdc (lt_asymm hcd)) h.1 h'.1

/-! ### Timer steps in a row (10_state.md R45) -/

theorem toneDue_eq_true (b : Byte) : toneDue b = true ↔ b.toNat = 1 := by
  rw [toneDue, decide_eq_true_iff, ← BitVec.toNat_inj]; rfl

/-- Settles O59: the output logged is the tone output just set. -/
theorem timerStepAddsItsOutputToTheLog : Obligations.TimerStepAddsItsOutputToTheLog :=
  fun s => ⟨toneDue_eq_true s.st, rfl⟩

theorem applyMoves_replicate_timerTick (n : Nat) {s : State} (h : s.params.timerMode = .external) :
    applyMoves s (List.replicate n .timerTick) = State.tickTimers^[n] s := by
  induction n generalizing s with
  | zero => rfl
  | succ n ih =>
    have htick : applyMove s .timerTick = s.tickTimers := by simp only [applyMove, State.driverTick, h]
    rw [List.replicate_succ, applyMoves, htick, Function.iterate_succ_apply]
    exact ih h

section
variable (s : State) (n : Nat)

theorem State.dt_iterate_tickTimers : (State.tickTimers^[n] s).dt.toNat = s.dt.toNat - n := by
  induction n with
  | zero => rfl
  | succ n ih => rw [Function.iterate_succ_apply', State.tickTimers_dt, toNat_tickDown, ih]; omega

theorem State.st_iterate_tickTimers : (State.tickTimers^[n] s).st.toNat = s.st.toNat - n := by
  induction n with
  | zero => rfl
  | succ n ih => rw [Function.iterate_succ_apply', State.tickTimers_st, toNat_tickDown, ih]; omega

/-- The log grows by the outputs of the n steps, each the one due for the sound timer it starts with. -/
theorem State.toneLog_iterate_tickTimers : (State.tickTimers^[n] s).toneLog =
    s.toneLog ++ (List.range n).map fun j => toneDue (State.tickTimers^[j] s).st := by
  induction n with
  | zero => simp
  | succ n ih =>
    rw [Function.iterate_succ_apply', State.tickTimers_toneLog, ih, List.range_succ, List.map_append,
      List.append_assoc]
    rfl

/-- The tone output of timer step n + 1 in a row is true exactly when the sound timer was n + 1 before the first. -/
theorem State.toneDue_iterate_tickTimers :
    toneDue (State.tickTimers^[n] s).st = true ↔ s.st.toNat = n + 1 := by
  rw [toneDue_eq_true, State.st_iterate_tickTimers]; omega

/-- A gap of n + 1 ticks in the external mode: each tick logs its own output, and the last one is the tone output. -/
theorem applyMoves_ticks (hmode : s.params.timerMode = .external) (hlog : s.toneLog = []) :
    let u := applyMoves s (List.replicate (n + 1) .timerTick)
    u.toneLog.length = n + 1 ∧
      (∀ (j : Nat) (h : j < u.toneLog.length), u.toneLog[j] = true ↔ s.st.toNat = j + 1) ∧
      (u.tone = true ↔ s.st.toNat = n + 1) ∧
      u.dt.toNat = s.dt.toNat - (n + 1) ∧ u.st.toNat = s.st.toNat - (n + 1) := by
  intro u
  have hu : u = State.tickTimers^[n + 1] s := applyMoves_replicate_timerTick _ hmode
  have hulog : u.toneLog = (List.range (n + 1)).map fun j => toneDue (State.tickTimers^[j] s).st := by
    rw [hu, State.toneLog_iterate_tickTimers, hlog, List.nil_append]
  refine ⟨by simp [hulog], fun j hj => ?_, ?_, ?_, ?_⟩
  · simp only [hulog, List.getElem_map, List.getElem_range]
    exact s.toneDue_iterate_tickTimers j
  · rw [hu, Function.iterate_succ_apply', State.tickTimers_tone]
    exact s.toneDue_iterate_tickTimers n
  · rw [hu]; exact s.dt_iterate_tickTimers _
  · rw [hu]; exact s.st_iterate_tickTimers _

end

/-- Settles O56: in the external mode the timers reach the gap as the instruction left them, with no output logged. -/
theorem eachTimerStepGivesItsOwnTone : Obligations.EachTimerStepGivesItsOwnTone := by
  intro s u k hmode hgap h
  obtain ⟨t, ht, rfl⟩ := step_cases h
  obtain ⟨-, hparams, -, -, -, htoneLog⟩ := execDecoded_environment ht
  have hexternal : t.params.timerMode = .external := by rw [hparams]; exact hmode
  rw [State.endCycle_external hexternal, hgap]
  exact ⟨t, ht, applyMoves_ticks { t.nextRandom with driver := s.driver.tail } k hexternal htoneLog⟩

/-! ### What holds by computing (10_state.md R28, R37) -/

/-- Settles O54: Reset is the reset state with the log and the queues put back. -/
theorem resetClearsTheLatchesAndKeepsTheEnvironment : Obligations.ResetClearsTheLatchesAndKeepsTheEnvironment :=
  fun _ => ⟨rfl, rfl, rfl, rfl, rfl, rfl, rfl, rfl⟩

/-- Settles O55: the old DT is overwritten and appears nowhere else. -/
theorem delayTimerLoadIgnoresTheOldDelay : Obligations.DelayTimerLoadIgnoresTheOldDelay :=
  fun _ _ _ => rfl

end Sys2Proof.Machine
end

section
/-! SUPPORT. What each instruction reads (10_state.md R22, R28, R32), and pc after it (R25). -/

namespace Sys2Proof.Machine

/-! ### pc after an instruction (10_state.md R25) -/

theorem addrOf_eq_ofNat (nnn : Addr12) : addrOf nnn = BitVec.ofNat 16 nnn.toNat := by
  rw [← toNat_addrOf, BitVec.ofNat_toNat, BitVec.setWidth_eq]

theorem addrOf_add_widen (nnn : Addr12) (b : Byte) :
    addrOf nnn + widen b = BitVec.ofNat 16 (b.toNat + nnn.toNat) := by
  apply BitVec.eq_of_toNat_eq
  rw [BitVec.toNat_add, toNat_addrOf, toNat_widen, BitVec.toNat_ofNat, Nat.add_comm]

theorem State.keyDown_eq (s : State) (b : Byte) :
    s.keyDown b = s.keys[b.toNat % 16]'(Nat.mod_lt _ (by norm_num)) := by
  simp only [State.keyDown, val_lowNibble]

theorem State.exists_key_of_firstKey {s : State} {k : Fin 16} (h : s.firstKey = some k) :
    ∃ k : Fin 16, s.keys[k.val] = true :=
  ⟨k, (State.firstKey_eq_some h).1⟩

theorem State.not_exists_key_of_firstKey {s : State} (h : s.firstKey = none) : ¬ ∃ k : Fin 16, s.keys[k.val] = true :=
  fun ⟨k, hk⟩ => by simp [State.firstKey_eq_none.mp h k] at hk

/-- Settles O25, row by row of the table. -/
theorem pcAfterEachInstructionIsTheTables : Obligations.PcAfterEachInstructionIsTheTables := by
  intro i s t h
  cases i with
  | jp nnn => cases h; exact addrOf_eq_ofNat nnn
  | jpV0 nnn => cases h; exact addrOf_add_widen nnn _
  | call nnn =>
    obtain ⟨hsp, rfl⟩ | ⟨hsp, rfl⟩ := execCall_cases h
    · rw [pcAfter, if_pos hsp]; exact addrOf_eq_ofNat nnn
    · rw [pcAfter, if_neg hsp]; rfl
  | ret ign =>
    obtain ⟨hsp, rfl⟩ | ⟨hsp, rfl⟩ := execRet_cases h
    · rw [pcAfter, dif_pos hsp]; rfl
    · rw [pcAfter, dif_neg hsp]; rfl
  | seImm | sneImm | seReg | sneReg => cases h; simp [pcAfter]
  | skp x => cases h; simp [pcAfter, State.keyDown_eq]
  | sknp x => cases h; rw [pcAfter, ← State.keyDown_eq]; cases s.keyDown (s.reg x) <;> simp
  | ldVxK x =>
    obtain ⟨k, hk, rfl⟩ | ⟨hk, rfl⟩ := execLdVxK_cases h
    · rw [pcAfter, if_pos (State.exists_key_of_firstKey hk)]; rfl
    · rw [pcAfter, if_neg (State.not_exists_key_of_firstKey hk)]
  | ldVxMem x =>
    -- `cases h` would compute the loaded register file
    have ht : (s.loadRegs (s.bytesUpTo x)).advance = t := Host.Outcome.next.inj h
    simp [← ht, pcAfter]
  | _ => cases h; rfl

/-! ### Even code (10_state.md R38) -/

theorem even_add_of_even {a b : Word} (ha : a.toNat % 2 = 0) (hb : b.toNat % 2 = 0) : (a + b).toNat % 2 = 0 := by
  rw [BitVec.toNat_add]; omega

theorem even_pcAfter {s : State} {i : Instr} (hs : s.EvenCode) (hi : evenTarget s i) :
    (pcAfter s i).toNat % 2 = 0 := by
  obtain ⟨hpc, hstack⟩ := hs
  have h2 : (s.pc + 2).toNat % 2 = 0 := even_add_of_even hpc rfl
  have h4 : (s.pc + 4).toNat % 2 = 0 := even_add_of_even hpc rfl
  cases i with
  | jp nnn => rw [pcAfter, ← addrOf_eq_ofNat, toNat_addrOf]; exact hi
  | jpV0 nnn =>
    have hsum : (nnn.toNat + (s.reg 0).toNat) % 2 = 0 := hi
    rw [pcAfter, BitVec.toNat_ofNat]; omega
  | call nnn =>
    rw [pcAfter]
    split
    · rw [← addrOf_eq_ofNat, toNat_addrOf]; exact hi
    · exact h2
  | ret ign =>
    rw [pcAfter]
    split
    · exact hstack ⟨s.sp.val - 1, by omega⟩
    · exact h2
  | seImm | seReg | skp => rw [pcAfter]; split; exacts [h4, h2]
  | sneImm | sneReg | sknp => rw [pcAfter]; split; exacts [h2, h4]
  | ldVxK => rw [pcAfter]; split; exacts [h2, hpc]
  | _ => exact h2

/-- The stack changes only by the return address that `CALL` stores. -/
theorem exec_stack {i : Instr} {s t : State} (h : exec i s = .next t) :
    t.stack = s.stack ∨ ∃ hsp : s.sp.val < 16, t.stack = s.stack.set s.sp.val (s.pc + 2) := by
  obtain ⟨-, -, hstack, -⟩ := exec_frame h
  obtain ⟨hkeep, -⟩ | ⟨nnn, rfl⟩ | ⟨ign, rfl⟩ := changesOf_stack_report s i
  · exact .inl (hstack hkeep).2
  · obtain ⟨hsp, rfl⟩ | ⟨-, rfl⟩ := execCall_cases h
    · exact .inr ⟨hsp, rfl⟩
    · exact .inl rfl
  · obtain ⟨_, rfl⟩ | ⟨_, rfl⟩ := execRet_cases h <;> exact .inl rfl

theorem exec_keeps_evenCode {i : Instr} {s t : State} (hs : s.EvenCode) (hi : evenTarget s i)
    (h : exec i s = .next t) : t.EvenCode := by
  refine ⟨by rw [pcAfterEachInstructionIsTheTables i s t h]; exact even_pcAfter hs hi, fun k => ?_⟩
  obtain ⟨hpc, hstack⟩ := hs
  obtain hkeep | ⟨hsp, hpush⟩ := exec_stack h
  · rw [hkeep]; exact hstack k
  · simp only [hpush, Vector.getElem_set]
    split
    · exact even_add_of_even hpc rfl
    · exact hstack k

theorem applyMove_keeps_evenCode (s : State) (m : DriverMove) (hs : s.EvenCode) : (applyMove s m).EvenCode := by
  obtain ⟨-, h⟩ | ⟨keys, mem, dt, st, tone, toneLog, h⟩ := applyMove_cases s m <;> rw [h]
  · simp [State.EvenCode, State.resetCore, State.resetWith]
  · exact hs

/-- Settles O27: what is executed keeps even code by the table of R25 and the stack's only write, and every move of the
gap keeps it. -/
theorem evenCodeStaysEven : Obligations.EvenCodeStaysEven := by
  intro s u hs htarget h
  obtain ⟨t, ht, rfl⟩ := step_cases h
  have hbegin : s.beginCycle.EvenCode := hs
  have hexec : t.EvenCode := by
    cases hd : decode s.fetchWord with
    | instr i => rw [hd] at ht; exact exec_keeps_evenCode hbegin (htarget i hd) ht
    | unknown w => rw [hd] at ht; cases ht; exact ⟨even_add_of_even hs.1 rfl, hs.2⟩
  refine applyMoves_keeps applyMove_keeps_evenCode _ ?_
  simpa [State.EvenCode] using hexec

/-! ### A piece of state that an instruction does not read

A change `f` of it may be made before the instruction or after it. The three instructions with two outcomes do so when
`f` keeps what they decide by and commutes with both outcomes. -/

section
variable (f : State → State) {s : State}

theorem execRet_commutes (ign : Nibble) (hsp : (f s).sp = s.sp)
    (hpop : ∀ h h', (f s).pop.jump ((f s).stackTop h') = f (s.pop.jump (s.stackTop h)))
    (hreport : ∀ w, (f s).reportAndAdvance .stackUnderflow w = f (s.reportAndAdvance .stackUnderflow w)) :
    execRet ign (f s) = mapNext f (execRet ign s) := by
  by_cases h : 0 < s.sp.val
  · have h' : 0 < (f s).sp.val := by rwa [hsp]
    rw [execRet_of_pos ign h, execRet_of_pos ign h', mapNext_next, hpop h h']
  · have h' : ¬ 0 < (f s).sp.val := by rwa [hsp]
    rw [execRet_of_not_pos ign h, execRet_of_not_pos ign h', mapNext_next, hreport]

theorem execCall_commutes (nnn : Addr12) (hsp : (f s).sp = s.sp)
    (hpush : ∀ h h', ((f s).push (nextPc (f s).pc) h').jump (addrOf nnn) =
      f ((s.push (nextPc s.pc) h).jump (addrOf nnn)))
    (hreport : ∀ w, (f s).reportAndAdvance .stackOverflow w = f (s.reportAndAdvance .stackOverflow w)) :
    execCall nnn (f s) = mapNext f (execCall nnn s) := by
  by_cases h : s.sp.val < 16
  · have h' : (f s).sp.val < 16 := by rwa [hsp]
    rw [execCall_of_lt nnn h, execCall_of_lt nnn h', mapNext_next, hpush h h']
  · have h' : ¬ (f s).sp.val < 16 := by rwa [hsp]
    rw [execCall_of_not_lt nnn h, execCall_of_not_lt nnn h', mapNext_next, hreport]

theorem execLdVxK_commutes (x : Reg) (hkey : (f s).firstKey = s.firstKey)
    (hset : ∀ b, ((f s).setReg x b).advance = f (s.setReg x b).advance) :
    execLdVxK x (f s) = mapNext f (execLdVxK x s) := by
  cases h : s.firstKey with
  | some k => rw [execLdVxK_of_some x h, execLdVxK_of_some x (hkey.trans h), mapNext_next, hset]
  | none => rw [execLdVxK_of_none x h, execLdVxK_of_none x (hkey.trans h), mapNext_next]

end

theorem exec_setDT_commutes {i : Instr} (hread : ∀ x, i ≠ .ldVxDT x) (hwrite : ∀ x, i ≠ .ldDTVx x) (s : State)
    (b : Byte) : exec i { s with dt := b } = mapNext (fun t => { t with dt := b }) (exec i s) := by
  cases i with
  | ldVxDT x => exact absurd rfl (hread x)
  | ldDTVx x => exact absurd rfl (hwrite x)
  | ret ign => exact execRet_commutes (fun t => { t with dt := b }) ign rfl (fun _ _ => rfl) fun _ => rfl
  | call nnn => exact execCall_commutes (fun t => { t with dt := b }) nnn rfl (fun _ _ => rfl) fun _ => rfl
  | ldVxK x => exact execLdVxK_commutes (fun t => { t with dt := b }) x rfl fun _ => rfl
  | _ => rfl

theorem exec_setST_commutes {i : Instr} (hwrite : ∀ x, i ≠ .ldSTVx x) (s : State) (b : Byte) :
    exec i { s with st := b } = mapNext (fun t => { t with st := b }) (exec i s) := by
  cases i with
  | ldSTVx x => exact absurd rfl (hwrite x)
  | ret ign => exact execRet_commutes (fun t => { t with st := b }) ign rfl (fun _ _ => rfl) fun _ => rfl
  | call nnn => exact execCall_commutes (fun t => { t with st := b }) nnn rfl (fun _ _ => rfl) fun _ => rfl
  | ldVxK x => exact execLdVxK_commutes (fun t => { t with st := b }) x rfl fun _ => rfl
  | _ => rfl

theorem exec_setKeys_commutes {i : Instr} (hskp : ∀ x, i ≠ .skp x) (hsknp : ∀ x, i ≠ .sknp x)
    (hwait : ∀ x, i ≠ .ldVxK x) (s : State) (keys : Vector Bool 16) :
    exec i { s with keys := keys } = mapNext (fun t => { t with keys := keys }) (exec i s) := by
  cases i with
  | skp x => exact absurd rfl (hskp x)
  | sknp x => exact absurd rfl (hsknp x)
  | ldVxK x => exact absurd rfl (hwait x)
  | ret ign => exact execRet_commutes (fun t => { t with keys := keys }) ign rfl (fun _ _ => rfl) fun _ => rfl
  | call nnn => exact execCall_commutes (fun t => { t with keys := keys }) nnn rfl (fun _ _ => rfl) fun _ => rfl
  | _ => rfl

theorem tickDown_pos {t : Byte} (h : 0 < t.toNat) : (tickDown t).toNat + 1 = t.toNat := by
  rw [toNat_tickDown]; omega

theorem exec_keeps_timers {i : Instr} {s t : State} (h : exec i s = .next t) :
    ((∀ x, i ≠ .ldDTVx x) → t.dt = s.dt) ∧ ((∀ x, i ≠ .ldSTVx x) → t.st = s.st) := by
  obtain ⟨-, -, -, hdelay, hsound, -⟩ := exec_frame h
  exact ⟨fun hi => hdelay ((changesOf_delay s i).resolve_right fun ⟨x, hx⟩ => hi x hx),
    fun hi => hsound ((changesOf_sound s i).resolve_right fun ⟨x, hx⟩ => hi x hx)⟩

/-- Settles O23: the moves and the timer step compute, what is not written is in the frame, and what is not read commutes
with the instruction. -/
theorem timersAreReadAndWrittenOnlyAsListed : Obligations.TimersAreReadAndWrittenOnlyAsListed :=
  ⟨fun x s => ⟨_, rfl, by simp⟩, fun _ _ => ⟨_, rfl, rfl⟩, fun _ _ => ⟨_, rfl, rfl⟩,
    fun _ _ _ => exec_keeps_timers,
    fun _ s b hread hwrite => exec_setDT_commutes hread hwrite s b,
    fun _ s b hwrite => exec_setST_commutes hwrite s b,
    fun _ _ _ => rfl,
    fun s => ⟨tickDown_pos, fun h => if_pos h, tickDown_pos, fun h => if_pos h⟩,
    fun _ => ⟨rfl, rfl⟩⟩

/-- Settles O24: an instruction and the cycle's end keep the keypad, and the gap is the driver's. -/
theorem keypadIsWrittenOnlyByTheDriver : Obligations.KeypadIsWrittenOnlyByTheDriver := by
  refine ⟨fun i s t h => ?_, fun s u hgap h => ?_, fun s keys rest hdriver => ?_,
    fun i s keys hskp hsknp hwait => exec_setKeys_commutes hskp hsknp hwait s keys⟩
  · obtain ⟨hkeys, -⟩ := execDecoded_environment (d := .instr i) h
    exact hkeys
  · obtain ⟨t, ht, rfl⟩ := step_cases h
    obtain ⟨hkeys, -⟩ := execDecoded_environment ht
    rw [hgap]
    exact t.endCycle_keys.trans hkeys
  · obtain ⟨u, hu⟩ := everyCycleCompletes.2 s
    obtain ⟨t, -, rfl⟩ := step_cases hu
    refine ⟨_, hu, ?_, ?_⟩ <;> rw [hdriver] <;> rfl

/-! ### The general registers (10_state.md R20, R22) -/

/-- The state with other general registers. -/
def State.setRegs (s : State) (v : Vector Byte 16) : State := { s with v := v }

/-- Run on the registers of `s` and on the registers `v`, the instruction gives states that differ only in general registers
and agree on those it writes. -/
def SameResults (i : Instr) (s : State) (v : Vector Byte 16) : Prop :=
  ∃ t t' : State, exec i s = .next t ∧ exec i (s.setRegs v) = .next t' ∧ t' = t.setRegs t'.v ∧
    ∀ r ∈ regsWritten s i, t'.reg r = t.reg r

section
variable {i : Instr} {s : State} {v : Vector Byte 16}

theorem SameResults.of_none_written {t : State} (h : exec i s = .next t)
    (h' : exec i (s.setRegs v) = .next (t.setRegs v)) (hw : regsWritten s i = []) : SameResults i s v :=
  ⟨_, _, h, h', rfl, by simp [hw]⟩

theorem SameResults.of_setReg {x : Reg} {b : Byte} (h : exec i s = .next (s.setReg x b).advance)
    (h' : exec i (s.setRegs v) = .next ((s.setRegs v).setReg x b).advance) (hw : regsWritten s i = [x]) :
    SameResults i s v :=
  ⟨_, _, h, h', rfl, by simp [hw]⟩

theorem SameResults.of_setRegAndFlag {x : Reg} {b : Byte} {f : Bool}
    (h : exec i s = .next (s.setRegAndFlag x b f).advance)
    (h' : exec i (s.setRegs v) = .next ((s.setRegs v).setRegAndFlag x b f).advance)
    (hw : regsWritten s i = [x, flagReg]) : SameResults i s v :=
  ⟨_, _, h, h', rfl, by simp [hw]⟩

theorem SameResults.of_drawSprite {x0 y0 : Nat} {rows : List Byte}
    (h : exec i s = .next (s.drawSprite x0 y0 rows).advance)
    (h' : exec i (s.setRegs v) = .next ((s.setRegs v).drawSprite x0 y0 rows).advance)
    (hw : regsWritten s i = [flagReg]) : SameResults i s v :=
  ⟨_, _, h, h', rfl, by simp [hw, State.setRegs]⟩

theorem SameResults.of_loadRegs {bytes : List Byte} (h : exec i s = .next (s.loadRegs bytes).advance)
    (h' : exec i (s.setRegs v) = .next ((s.setRegs v).loadRegs bytes).advance)
    (hw : ∀ r ∈ regsWritten s i, r.val < bytes.length) : SameResults i s v :=
  ⟨_, _, h, h', rfl, fun r hr => by simp [List.getElem?_eq_getElem (hw r hr)]⟩

theorem State.regsUpTo_congr {s s' : State} {x : Reg} (h : ∀ r ∈ regRange x, s'.reg r = s.reg r) :
    s'.regsUpTo x = s.regsUpTo x := by
  refine List.ext_getElem (by simp) fun k hk hk' => ?_
  rw [State.getElem_regsUpTo, State.getElem_regsUpTo]
  rw [State.length_regsUpTo] at hk
  exact h ⟨k, by omega⟩ (State.mem_regRange.mpr (by simp only; omega))

/-- Registers that agree with those of the state on what the instruction reads give the same results. -/
theorem exec_sameResults_of_read_eq (hread : ∀ r ∈ regsRead i, (s.setRegs v).reg r = s.reg r) : SameResults i s v := by
  cases i with
  | cls | jp | ldI => exact .of_none_written rfl rfl rfl
  | ret ign =>
    obtain ⟨t, ht⟩ := exec_total (.ret ign) s
    refine .of_none_written ht ?_ rfl
    exact (execRet_commutes (State.setRegs · v) ign rfl (fun _ _ => rfl) fun _ => rfl).trans (congrArg (mapNext _) ht)
  | call nnn =>
    obtain ⟨t, ht⟩ := exec_total (.call nnn) s
    refine .of_none_written ht ?_ rfl
    exact (execCall_commutes (State.setRegs · v) nnn rfl (fun _ _ => rfl) fun _ => rfl).trans (congrArg (mapNext _) ht)
  | seImm | sneImm | jpV0 | skp | sknp | ldDTVx | ldSTVx | addI | ldF | ldB =>
    have hx := hread _ List.mem_cons_self
    exact .of_none_written rfl (by rw [← hx]; rfl) rfl
  | seReg | sneReg =>
    have hx := hread _ List.mem_cons_self
    have hy := hread _ (List.mem_cons_of_mem _ List.mem_cons_self)
    exact .of_none_written rfl (by rw [← hx, ← hy]; rfl) rfl
  | ldMemVx x => exact .of_none_written rfl (by rw [← State.regsUpTo_congr hread]; rfl) rfl
  | ldImm | rnd | ldVxDT => exact .of_setReg rfl rfl rfl
  | addImm | ldReg =>
    have hx := hread _ List.mem_cons_self
    exact .of_setReg rfl (by rw [← hx]; rfl) rfl
  | orReg | andReg | xorReg =>
    have hx := hread _ List.mem_cons_self
    have hy := hread _ (List.mem_cons_of_mem _ List.mem_cons_self)
    exact .of_setReg rfl (by rw [← hx, ← hy]; rfl) rfl
  | addReg | subReg | subnReg =>
    have hx := hread _ List.mem_cons_self
    have hy := hread _ (List.mem_cons_of_mem _ List.mem_cons_self)
    exact .of_setRegAndFlag rfl (by rw [← hx, ← hy]; rfl) rfl
  | shr | shl =>
    have hx := hread _ List.mem_cons_self
    exact .of_setRegAndFlag rfl (by rw [← hx]; rfl) rfl
  | drw =>
    have hx := hread _ List.mem_cons_self
    have hy := hread _ (List.mem_cons_of_mem _ List.mem_cons_self)
    exact .of_drawSprite rfl (by rw [← hx, ← hy]; rfl) rfl
  | ldVxK x =>
    cases hk : s.firstKey with
    | some k =>
      exact .of_setReg (execLdVxK_of_some x hk) (execLdVxK_of_some x (s := s.setRegs v) hk)
        (if_pos (State.exists_key_of_firstKey hk))
    | none =>
      exact .of_none_written (execLdVxK_of_none x hk) (execLdVxK_of_none x (s := s.setRegs v) hk)
        (if_neg (State.not_exists_key_of_firstKey hk))
  | ldVxMem x =>
    refine .of_loadRegs rfl rfl fun r hr => ?_
    have hle : r.val ≤ x.val := State.mem_regRange.mp hr
    rw [State.bytesUpTo, State.length_memReadBytes]
    omega

theorem exec_reg_of_not_written {t : State} (h : exec i s = .next t) {r : Reg} (hr : r ∉ regsWritten s i) :
    t.reg r = s.reg r := by
  rw [← changesOf_regs] at hr
  exact (exec_frame h).1 r hr

/-- Which registers an instruction writes does not depend on the registers. -/
theorem regsWritten_setRegs : regsWritten (s.setRegs v) i = regsWritten s i := by
  cases i <;> rfl

end

/-- Settles O22: the registers read fix those written, and the frame of each run keeps the others. -/
theorem registersReadAndWrittenAreTheListedOnes : Obligations.RegistersReadAndWrittenAreTheListedOnes := by
  intro i s v hread
  obtain ⟨t, t', ht, ht', hsame, hwritten⟩ := exec_sameResults_of_read_eq hread
  refine ⟨t, t', ht, ht', hsame, fun r => ⟨hwritten r, fun hr => ⟨exec_reg_of_not_written ht hr, ?_⟩⟩⟩
  exact exec_reg_of_not_written ht' (by rwa [regsWritten_setRegs])

end Sys2Proof.Machine
end

section
/-! SUPPORT. The fetch as two bytes of memory (20_memory.md R61, R65), and a fetch after a store (R74). -/

namespace Sys2Proof.Machine

/-- The fetch is big-endian (20_memory.md R61). -/
theorem State.toNat_fetchWord (s : State) :
    s.fetchWord.toNat = 256 * (s.memRead s.pc.toNat).toNat + (s.memRead (s.pc.toNat + 1)).toNat := by
  rw [State.fetchWord, toNat_wordOfBytes, Nat.mul_comm]

/-- Register dump puts Vk at `I + k` (44_index_memory.md R183), reduced mod 4096 on the store and on the load alike. -/
theorem State.memRead_memWriteBytes_regsUpTo (s : State) {x k : Reg} (hk : k.val ≤ x.val) :
    (s.memWriteBytes s.indexAddress (s.regsUpTo x)).memRead (s.indexAddress + k.val) = s.reg k := by
  have hlen : (s.regsUpTo x).length = x.val + 1 := s.length_regsUpTo x
  rw [s.memRead_memWriteBytes_at s.indexAddress (by omega) (by omega), s.getElem_regsUpTo, State.reg]

/-- Settles O7: the fetch reads the bytes at pc and pc + 1, and a read reduces its own address mod 4096. -/
theorem fetchReadsTwoBytesHighFirst : Obligations.FetchReadsTwoBytesHighFirst := by
  intro s
  rw [s.memRead_mod, s.memRead_mod, s.toNat_fetchWord]

/-- Settles O20: pc after register dump is the I it stored at, so the fetch reads the cells where V0 and V1 were put. -/
theorem storedWordIsFetchedNext : Obligations.StoredWordIsFetchedNext := by
  intro s x hx hi
  refine ⟨_, exec_ldMemVx x s, ?_⟩
  have hpc : (s.memWriteBytes s.indexAddress (s.regsUpTo x)).advance.pc.toNat = s.indexAddress := by
    rw [State.advance_pc, State.memWriteBytes_pc, ← hi, State.indexAddress]
  have hhigh : (s.memWriteBytes s.indexAddress (s.regsUpTo x)).memRead s.indexAddress = s.reg 0 :=
    s.memRead_memWriteBytes_regsUpTo (k := 0) x.val.zero_le
  have hlow : (s.memWriteBytes s.indexAddress (s.regsUpTo x)).memRead (s.indexAddress + 1) = s.reg 1 :=
    s.memRead_memWriteBytes_regsUpTo (k := 1) hx
  rw [State.toNat_fetchWord, hpc, State.memRead_advance, State.memRead_advance, hhigh, hlow]

end Sys2Proof.Machine
end

section
/-! SUPPORT. The encoder against the decoder (30_encoding.md R92, R96, R99), and both against the opcode map (R97) and the
list of unknown words (R108). -/

namespace Sys2Proof

/-! ### A word from its operands and its selectors (30_encoding.md R95) -/

section
variable {w : Word} {op n : Nibble} {kk : Byte}

theorem formatNNN_eq_of_fields (hop : fieldOp w = op) : formatNNN op (fieldNNN w) = w := by
  rw [← hop, formatNNN_fields]

theorem formatXKK_eq_of_fields (hop : fieldOp w = op) (hkk : fieldKK w = kk) : formatXKK op (fieldX w) kk = w := by
  rw [← hop, ← hkk, formatXKK_fields]

theorem formatXYN_eq_of_fields (hop : fieldOp w = op) (hn : fieldN w = n) :
    formatXYN op (fieldX w) (fieldY w) n = w := by
  rw [← hop, ← hn, formatXYN_fields]

/-! A match under a mask fixes the selectors (30_encoding.md R97). -/

theorem fieldOp_of_and_F000 (h : w &&& 0xF000#16 = formatXKK op 0 0) : fieldOp w = op :=
  (formatXKK_inj.mp ((and_F000 w).symm.trans h)).1

theorem formatXKK_eq_of_and_F0FF (h : w &&& 0xF0FF#16 = formatXKK op 0 kk) : formatXKK op (fieldX w) kk = w := by
  obtain ⟨hop, -, hkk⟩ := formatXKK_inj.mp ((and_F0FF w).symm.trans h)
  exact formatXKK_eq_of_fields hop hkk

theorem formatXYN_eq_of_and_F00F (h : w &&& 0xF00F#16 = formatXYN op 0 0 n) :
    formatXYN op (fieldX w) (fieldY w) n = w := by
  obtain ⟨hop, -, -, hn⟩ := formatXYN_inj.mp ((and_F00F w).symm.trans h)
  exact formatXYN_eq_of_fields hop hn

end

/-! ### Decode after encode -/

/-- An instruction is read back from its word: its format holds the selectors its family's decision list asks for, and the
operands in the fields that decode reads. -/
theorem decode_encode (i : Instr) : decode (encode i) = .instr i := by
  cases i with
  | jp | call | ldI | jpV0 => simp [encode, decode]
  | seImm | sneImm | ldImm | addImm | rnd => simp [encode, decode]
  | seReg | sneReg | drw => simp [encode, decode]
  | cls | ret => simp [encode, decode_op0, decodeFamily0]
  | ldReg | orReg | andReg | xorReg | addReg | subReg | shr | subnReg | shl => simp [encode, decode_op8, decodeFamily8]
  | skp | sknp => simp [encode, decode_opE, decodeFamilyE]
  | ldVxDT | ldDTVx | ldSTVx | ldVxK | addI | ldF | ldB | ldMemVx | ldVxMem =>
    simp [encode, decode_opF, decodeFamilyF]

/-- Settles O1: the encoder's word holds the selectors and operands where the decoder reads them. -/
theorem everyInstructionDecodesFromItsWord : Obligations.EveryInstructionDecodesFromItsWord :=
  decode_encode

/-! ### Encode after decode: no bit is lost -/

/-- The word that a decoder's answer stands for. -/
def Decoded.word : Decoded → Word
  | .instr i => encode i
  | .unknown w => w

section
variable {w : Word}

theorem word_decodeFamily0 (hop : fieldOp w = 0x0) : (decodeFamily0 w).word = w := by
  unfold decodeFamily0
  split_ifs with hcls hret
  · exact formatXKK_eq_of_fields hop hcls
  · exact formatXKK_eq_of_fields hop hret
  · rfl

theorem word_decodeFamily8 (hop : fieldOp w = 0x8) : (decodeFamily8 w).word = w := by
  unfold decodeFamily8
  split_ifs with h0 h1 h2 h3 h4 h5 h6 h7 hE
  · exact formatXYN_eq_of_fields hop h0
  · exact formatXYN_eq_of_fields hop h1
  · exact formatXYN_eq_of_fields hop h2
  · exact formatXYN_eq_of_fields hop h3
  · exact formatXYN_eq_of_fields hop h4
  · exact formatXYN_eq_of_fields hop h5
  · exact formatXYN_eq_of_fields hop h6
  · exact formatXYN_eq_of_fields hop h7
  · exact formatXYN_eq_of_fields hop hE
  · rfl

theorem word_decodeFamilyE (hop : fieldOp w = 0xE) : (decodeFamilyE w).word = w := by
  unfold decodeFamilyE
  split_ifs with hskp hsknp
  · exact formatXKK_eq_of_fields hop hskp
  · exact formatXKK_eq_of_fields hop hsknp
  · rfl

theorem word_decodeFamilyF (hop : fieldOp w = 0xF) : (decodeFamilyF w).word = w := by
  unfold decodeFamilyF
  split_ifs with h07 h0A h15 h18 h1E h29 h33 h55 h65
  · exact formatXKK_eq_of_fields hop h07
  · exact formatXKK_eq_of_fields hop h0A
  · exact formatXKK_eq_of_fields hop h15
  · exact formatXKK_eq_of_fields hop h18
  · exact formatXKK_eq_of_fields hop h1E
  · exact formatXKK_eq_of_fields hop h29
  · exact formatXKK_eq_of_fields hop h33
  · exact formatXKK_eq_of_fields hop h55
  · exact formatXKK_eq_of_fields hop h65
  · rfl

end

/-- Whatever the decoder answers stands for the word it was given: instruction and unknown word alike. -/
theorem word_decode (w : Word) : (decode w).word = w := by
  rcases nibble_cases (fieldOp w) with h | h | h | h | h | h | h | h | h | h | h | h | h | h | h | h
  · rw [decode_op0 h, word_decodeFamily0 h]
  · rw [decode_op1 h]; exact formatNNN_eq_of_fields h
  · rw [decode_op2 h]; exact formatNNN_eq_of_fields h
  · rw [decode_op3 h]; exact formatXKK_eq_of_fields h rfl
  · rw [decode_op4 h]; exact formatXKK_eq_of_fields h rfl
  · rw [decode_op5 h]; exact formatXYN_eq_of_fields h rfl
  · rw [decode_op6 h]; exact formatXKK_eq_of_fields h rfl
  · rw [decode_op7 h]; exact formatXKK_eq_of_fields h rfl
  · rw [decode_op8 h, word_decodeFamily8 h]
  · rw [decode_op9 h]; exact formatXYN_eq_of_fields h rfl
  · rw [decode_opA h]; exact formatNNN_eq_of_fields h
  · rw [decode_opB h]; exact formatNNN_eq_of_fields h
  · rw [decode_opC h]; exact formatXKK_eq_of_fields h rfl
  · rw [decode_opD h]; exact formatXYN_eq_of_fields h rfl
  · rw [decode_opE h, word_decodeFamilyE h]
  · rw [decode_opF h, word_decodeFamilyF h]

theorem encode_eq_of_decode {w : Word} {i : Instr} (h : decode w = .instr i) : encode i = w := by
  simpa only [h, Decoded.word] using word_decode w

theorem decode_eq_instr_iff {w : Word} {i : Instr} : decode w = .instr i ↔ encode i = w :=
  ⟨encode_eq_of_decode, fun h => h ▸ decode_encode i⟩

theorem eq_of_decode_unknown {w u : Word} (h : decode w = .unknown u) : u = w := by
  simpa only [h, Decoded.word] using word_decode w

/-- Settles O2: the answer of the decoder stands for the word it was given. -/
theorem everyDecodedWordIsItsInstructionsWord : Obligations.EveryDecodedWordIsItsInstructionsWord :=
  fun _ _ => encode_eq_of_decode

/-! ### The opcode map -/

/-- Two rows that select one word agree where both masks look. -/
theorem pattern_and_mask_eq_of_match {w : Word} {a b : OpcodeRow} (ha : w &&& a.mask = a.pattern)
    (hb : w &&& b.mask = b.pattern) : a.pattern &&& b.mask = b.pattern &&& a.mask := by
  rw [← ha, ← hb, BitVec.and_assoc, BitVec.and_assoc, BitVec.and_comm a.mask]

/-- Any two rows of the map differ where both masks look. -/
theorem opcodeMap_separated :
    opcodeMap.Pairwise fun a b => a.pattern &&& b.mask ≠ b.pattern &&& a.mask := by
  decide

theorem opcodeMap_numbers_nodup : (opcodeMap.map OpcodeRow.number).Nodup := by
  decide

/-- The row selects the word only if the word is that of an instruction of the row: the row's selectors with the word's own
operands. -/
def OpcodeRow.SelectsOnlyItsInstructions (w : Word) (row : OpcodeRow) : Prop :=
  w &&& row.mask = row.pattern → ∃ i, encode i = w ∧ rowNumber i = row.number

section
variable (w : Word)

theorem opcodeMapFlow_selects : ∀ row ∈ opcodeMapFlow, row.SelectsOnlyItsInstructions w := by
  let x := regOf (fieldX w)
  let y := regOf (fieldY w)
  simp only [opcodeMapFlow, List.forall_mem_cons]
  exact ⟨fun h => ⟨.cls (fieldX w), formatXKK_eq_of_and_F0FF h, rfl⟩,
    fun h => ⟨.ret (fieldX w), formatXKK_eq_of_and_F0FF h, rfl⟩,
    fun h => ⟨.jp (fieldNNN w), formatNNN_eq_of_fields (fieldOp_of_and_F000 h), rfl⟩,
    fun h => ⟨.call (fieldNNN w), formatNNN_eq_of_fields (fieldOp_of_and_F000 h), rfl⟩,
    fun h => ⟨.seImm x (fieldKK w), formatXKK_eq_of_fields (fieldOp_of_and_F000 h) rfl, rfl⟩,
    fun h => ⟨.sneImm x (fieldKK w), formatXKK_eq_of_fields (fieldOp_of_and_F000 h) rfl, rfl⟩,
    fun h => ⟨.seReg x y (fieldN w), formatXYN_eq_of_fields (fieldOp_of_and_F000 h) rfl, rfl⟩,
    fun h => ⟨.sneReg x y (fieldN w), formatXYN_eq_of_fields (fieldOp_of_and_F000 h) rfl, rfl⟩,
    fun h => ⟨.ldImm x (fieldKK w), formatXKK_eq_of_fields (fieldOp_of_and_F000 h) rfl, rfl⟩,
    fun h => ⟨.addImm x (fieldKK w), formatXKK_eq_of_fields (fieldOp_of_and_F000 h) rfl, rfl⟩,
    List.forall_mem_nil _⟩

theorem opcodeMapAlu_selects : ∀ row ∈ opcodeMapAlu, row.SelectsOnlyItsInstructions w := by
  let x := regOf (fieldX w)
  let y := regOf (fieldY w)
  simp only [opcodeMapAlu, List.forall_mem_cons]
  exact ⟨fun h => ⟨.ldReg x y, formatXYN_eq_of_and_F00F h, rfl⟩,
    fun h => ⟨.orReg x y, formatXYN_eq_of_and_F00F h, rfl⟩,
    fun h => ⟨.andReg x y, formatXYN_eq_of_and_F00F h, rfl⟩,
    fun h => ⟨.xorReg x y, formatXYN_eq_of_and_F00F h, rfl⟩,
    fun h => ⟨.addReg x y, formatXYN_eq_of_and_F00F h, rfl⟩,
    fun h => ⟨.subReg x y, formatXYN_eq_of_and_F00F h, rfl⟩,
    fun h => ⟨.shr x (fieldY w), formatXYN_eq_of_and_F00F h, rfl⟩,
    fun h => ⟨.subnReg x y, formatXYN_eq_of_and_F00F h, rfl⟩,
    fun h => ⟨.shl x (fieldY w), formatXYN_eq_of_and_F00F h, rfl⟩,
    List.forall_mem_nil _⟩

theorem opcodeMapRest_selects : ∀ row ∈ opcodeMapRest, row.SelectsOnlyItsInstructions w := by
  let x := regOf (fieldX w)
  simp only [opcodeMapRest, List.forall_mem_cons]
  exact ⟨fun h => ⟨.ldI (fieldNNN w), formatNNN_eq_of_fields (fieldOp_of_and_F000 h), rfl⟩,
    fun h => ⟨.jpV0 (fieldNNN w), formatNNN_eq_of_fields (fieldOp_of_and_F000 h), rfl⟩,
    fun h => ⟨.rnd x (fieldKK w), formatXKK_eq_of_fields (fieldOp_of_and_F000 h) rfl, rfl⟩,
    fun h => ⟨.drw x (regOf (fieldY w)) (fieldN w), formatXYN_eq_of_fields (fieldOp_of_and_F000 h) rfl, rfl⟩,
    fun h => ⟨.skp x, formatXKK_eq_of_and_F0FF h, rfl⟩,
    fun h => ⟨.sknp x, formatXKK_eq_of_and_F0FF h, rfl⟩,
    fun h => ⟨.ldVxDT x, formatXKK_eq_of_and_F0FF h, rfl⟩,
    fun h => ⟨.ldDTVx x, formatXKK_eq_of_and_F0FF h, rfl⟩,
    fun h => ⟨.ldSTVx x, formatXKK_eq_of_and_F0FF h, rfl⟩,
    fun h => ⟨.ldVxK x, formatXKK_eq_of_and_F0FF h, rfl⟩,
    fun h => ⟨.addI x, formatXKK_eq_of_and_F0FF h, rfl⟩,
    fun h => ⟨.ldF x, formatXKK_eq_of_and_F0FF h, rfl⟩,
    fun h => ⟨.ldB x, formatXKK_eq_of_and_F0FF h, rfl⟩,
    fun h => ⟨.ldMemVx x, formatXKK_eq_of_and_F0FF h, rfl⟩,
    fun h => ⟨.ldVxMem x, formatXKK_eq_of_and_F0FF h, rfl⟩,
    List.forall_mem_nil _⟩

theorem opcodeMap_selects : ∀ row ∈ opcodeMap, row.SelectsOnlyItsInstructions w :=
  List.forall_mem_append.mpr ⟨List.forall_mem_append.mpr ⟨opcodeMapFlow_selects w, opcodeMapAlu_selects w⟩,
    opcodeMapRest_selects w⟩

end

/-- The word of every instruction is selected by the row that bears the instruction's number. -/
theorem encode_matches_its_row (i : Instr) : Laws.OpcodeRow.Statement i := by
  cases i with
  | cls ign => exact Laws.OpcodeRow.cls ign
  | ret ign => exact Laws.OpcodeRow.ret ign
  | jp nnn => exact Laws.OpcodeRow.jp nnn
  | call nnn => exact Laws.OpcodeRow.call nnn
  | seImm x kk => exact Laws.OpcodeRow.seImm x kk
  | sneImm x kk => exact Laws.OpcodeRow.sneImm x kk
  | seReg x y ign => exact Laws.OpcodeRow.seReg x y ign
  | sneReg x y ign => exact Laws.OpcodeRow.sneReg x y ign
  | ldImm x kk => exact Laws.OpcodeRow.ldImm x kk
  | addImm x kk => exact Laws.OpcodeRow.addImm x kk
  | ldReg x y => exact Laws.OpcodeRow.ldReg x y
  | orReg x y => exact Laws.OpcodeRow.orReg x y
  | andReg x y => exact Laws.OpcodeRow.andReg x y
  | xorReg x y => exact Laws.OpcodeRow.xorReg x y
  | addReg x y => exact Laws.OpcodeRow.addReg x y
  | subReg x y => exact Laws.OpcodeRow.subReg x y
  | shr x ign => exact Laws.OpcodeRow.shr x ign
  | subnReg x y => exact Laws.OpcodeRow.subnReg x y
  | shl x ign => exact Laws.OpcodeRow.shl x ign
  | ldI nnn => exact Laws.OpcodeRow.ldI nnn
  | jpV0 nnn => exact Laws.OpcodeRow.jpV0 nnn
  | rnd x kk => exact Laws.OpcodeRow.rnd x kk
  | drw x y n => exact Laws.OpcodeRow.drw x y n
  | skp x => exact Laws.OpcodeRow.skp x
  | sknp x => exact Laws.OpcodeRow.sknp x
  | ldVxDT x => exact Laws.OpcodeRow.ldVxDT x
  | ldDTVx x => exact Laws.OpcodeRow.ldDTVx x
  | ldSTVx x => exact Laws.OpcodeRow.ldSTVx x
  | ldVxK x => exact Laws.OpcodeRow.ldVxK x
  | addI x => exact Laws.OpcodeRow.addI x
  | ldF x => exact Laws.OpcodeRow.ldF x
  | ldB x => exact Laws.OpcodeRow.ldB x
  | ldMemVx x => exact Laws.OpcodeRow.ldMemVx x
  | ldVxMem x => exact Laws.OpcodeRow.ldVxMem x

theorem encode_and_mask_of_rowNumber {i : Instr} {row : OpcodeRow} (hrow : row ∈ opcodeMap)
    (hn : rowNumber i = row.number) : encode i &&& row.mask = row.pattern := by
  obtain ⟨own, hown, hnumber, hmatch⟩ := encode_matches_its_row i
  obtain rfl : own = row := List.inj_on_of_nodup_map opcodeMap_numbers_nodup hown hrow (hnumber.trans hn)
  exact hmatch

/-- Settles O3: rows that both selected a word would agree under both masks, and a row selects exactly the words of its own
instructions. -/
theorem decodeFollowsTheOpcodeMap : Obligations.DecodeFollowsTheOpcodeMap := by
  refine ⟨opcodeMap_separated.imp fun hne w ⟨ha, hb⟩ => hne (pattern_and_mask_eq_of_match ha hb), fun w row hrow => ?_⟩
  simp only [decode_eq_instr_iff]
  constructor
  · exact opcodeMap_selects w row hrow
  · rintro ⟨i, rfl, hn⟩
    exact encode_and_mask_of_rowNumber hrow hn

/-! ### The unknown words (30_encoding.md R108) -/

/-- The decision list goes past an entry that answers an instruction exactly when the entry's test fails. -/
theorem ite_instr_eq_unknown_iff {c : Prop} [Decidable c] {i : Instr} {d : Decoded} {w : Word} :
    (if c then .instr i else d) = Decoded.unknown w ↔ ¬ c ∧ d = .unknown w := by
  split <;> simp [*]

section
variable {w : Word}

theorem decodeFamily0_eq_unknown_iff : decodeFamily0 w = .unknown w ↔ fieldKK w ∉ [0xE0, 0xEE] := by
  simp [decodeFamily0, ite_instr_eq_unknown_iff]

theorem decodeFamily8_eq_unknown_iff :
    decodeFamily8 w = .unknown w ↔ fieldN w ∈ [0x8, 0x9, 0xA, 0xB, 0xC, 0xD, 0xF] := by
  simp only [decodeFamily8, ite_instr_eq_unknown_iff, and_true]
  generalize fieldN w = n
  revert n
  decide

theorem decodeFamilyE_eq_unknown_iff : decodeFamilyE w = .unknown w ↔ fieldKK w ∉ [0x9E, 0xA1] := by
  simp [decodeFamilyE, ite_instr_eq_unknown_iff]

theorem decodeFamilyF_eq_unknown_iff :
    decodeFamilyF w = .unknown w ↔ fieldKK w ∉ [0x07, 0x0A, 0x15, 0x18, 0x1E, 0x29, 0x33, 0x55, 0x65] := by
  simp [decodeFamilyF, ite_instr_eq_unknown_iff]

/-- Only the four families with a secondary selector have unknown words, and each those its own list leaves over. -/
theorem decode_eq_unknown_iff : decode w = .unknown w ↔
    (fieldOp w = 0x0 ∧ decodeFamily0 w = .unknown w) ∨ (fieldOp w = 0x8 ∧ decodeFamily8 w = .unknown w) ∨
    (fieldOp w = 0xE ∧ decodeFamilyE w = .unknown w) ∨ (fieldOp w = 0xF ∧ decodeFamilyF w = .unknown w) := by
  rcases nibble_cases (fieldOp w) with h | h | h | h | h | h | h | h | h | h | h | h | h | h | h | h
  · simp [h, decode_op0 h]
  · simp [h, decode_op1 h]
  · simp [h, decode_op2 h]
  · simp [h, decode_op3 h]
  · simp [h, decode_op4 h]
  · simp [h, decode_op5 h]
  · simp [h, decode_op6 h]
  · simp [h, decode_op7 h]
  · simp [h, decode_op8 h]
  · simp [h, decode_op9 h]
  · simp [h, decode_opA h]
  · simp [h, decode_opB h]
  · simp [h, decode_opC h]
  · simp [h, decode_opD h]
  · simp [h, decode_opE h]
  · simp [h, decode_opF h]

/-! The selectors compared as numbers. -/

theorem fieldOp_eq_iff {op : Nibble} : fieldOp w = op ↔ w.toNat / 4096 = op.toNat := by
  rw [← toNat_fieldOp, BitVec.toNat_inj]

theorem fieldN_mem_iff {ns : List Nibble} : fieldN w ∈ ns ↔ w.toNat % 16 ∈ ns.map BitVec.toNat := by
  rw [← toNat_fieldN, List.mem_map_of_injective fun _ _ => BitVec.eq_of_toNat_eq]

theorem fieldKK_mem_iff {kks : List Byte} : fieldKK w ∈ kks ↔ w.toNat % 256 ∈ kks.map BitVec.toNat := by
  rw [← toNat_fieldKK, List.mem_map_of_injective fun _ _ => BitVec.eq_of_toNat_eq]

end

/-- Settles O4: the answer stands for the word given, and each family leaves over the selectors not in its list. -/
theorem unknownWordsAreExactlyTheListedOnes : Obligations.UnknownWordsAreExactlyTheListedOnes := by
  refine fun w => ⟨fun _ => eq_of_decode_unknown, ?_⟩
  rw [decode_eq_unknown_iff, decodeFamily0_eq_unknown_iff, decodeFamily8_eq_unknown_iff, decodeFamilyE_eq_unknown_iff,
    decodeFamilyF_eq_unknown_iff]
  simp only [fieldOp_eq_iff, fieldN_mem_iff, fieldKK_mem_iff]
  rfl

/-! ### The words written out in the spec -/

/-- Settles O5: the known words are the encodings of their instructions. -/
theorem specExampleWordsDecode : Obligations.SpecExampleWordsDecode :=
  ⟨decode_encode (.cls 0xA), decode_encode (.jp 0xABC), decode_encode (.seImm 10 0x07), decode_encode (.seReg 1 2 7),
    decode_encode (.subnReg 10 11), decode_encode (.ldI 0x300), decode_encode (.drw 1 2 5), decode_encode (.sknp 1),
    decode_encode (.ldMemVx 3), by decide⟩

end Sys2Proof

namespace Sys2Proof.Machine

/-! ### Ignored bits (30_encoding.md R96) -/

theorem canonical_wellFormed (i : Instr) : i.canonical.wellFormed = true := by
  cases i <;> rfl

/-- Only the report of RET with an empty stack looks at ignored bits. -/
theorem exec_canonical {i : Instr} {s : State} (hret : ∀ ign, i = .ret ign → 0 < s.sp.val) :
    exec i s = exec i.canonical s := by
  cases i with
  | ret ign =>
    have hsp : 0 < s.sp.val := hret ign rfl
    rw [Instr.canonical, exec_ret, exec_ret, execRet_of_pos ign hsp, execRet_of_pos 0 hsp]
  | _ => rfl

/-- Settles O6: a RET that returns is `exec_canonical`'s case, and one that reports differs in the word reported. -/
theorem ignoredBitsChangeNothing : Obligations.IgnoredBitsChangeNothing := by
  refine ⟨fun i s => exec_canonical, fun ign s => ?_, canonical_wellFormed⟩
  by_cases hsp : 0 < s.sp.val
  · exact ⟨_, _, execRet_of_pos ign hsp, execRet_of_pos 0 hsp, rfl⟩
  · exact ⟨_, _, execRet_of_not_pos ign hsp, execRet_of_not_pos 0 hsp, rfl⟩

end Sys2Proof.Machine
end

section
/-! SUPPORT. Clear display, return, jump, call and the compare-skips (40_flow_and_skips.md). -/

namespace Sys2Proof.Machine

/-! ### The words that the stack errors report (60_exceptions.md R192, R193) -/

theorem encode_ret (ign : Nibble) : encode (.ret ign) = BitVec.ofNat 16 (ign.toNat * 256 + 0xEE) := by
  have hword : (encode (.ret ign)).toNat = 0 * 4096 + ign.toNat * 256 + 0xEE := toNat_formatXKK 0x0 ign 0xEE
  apply BitVec.eq_of_toNat_eq; rw [hword, BitVec.toNat_ofNat]; omega

theorem encode_call (nnn : Addr12) : encode (.call nnn) = BitVec.ofNat 16 (0x2000 + nnn.toNat) := by
  have hword : (encode (.call nnn)).toNat = 0x2000 + nnn.toNat := toNat_formatNNN 0x2 nnn
  apply BitVec.eq_of_toNat_eq; rw [hword, BitVec.toNat_ofNat]; omega

/-! ### The stack (10_state.md R27) -/

section
variable {s : State}

theorem State.getElem_push_stack (a : Word) (h : s.sp.val < 16) (k : Fin 16) :
    (s.push a h).stack[k.val] = if s.sp.val = k.val then a else s.stack[k.val] := by
  simp only [State.push_stack, Vector.getElem_set]

/-- A pop takes back the entry that a push stored, whatever pc is set to in between. -/
theorem State.stackTop_jump_push (a target : Word) (h : s.sp.val < 16) (hpos : 0 < ((s.push a h).jump target).sp.val) :
    ((s.push a h).jump target).stackTop hpos = a :=
  Vector.getElem_set_self h

theorem State.pop_sp_add_one (h : 0 < s.sp.val) : s.pop.sp.val + 1 = s.sp.val := by
  rw [State.pop_sp]; exact Nat.sub_add_cancel h

end

/-- Settles O30, in the two cases of `execRet`. -/
theorem returnPopsOrReports : Obligations.ReturnPopsOrReports := by
  refine fun ign s => ⟨fun hpos => ?_, fun hempty => ?_⟩
  · exact ⟨_, execRet_of_pos ign hpos, rfl, State.pop_sp_add_one hpos, rfl, (State.frame_pop rfl).jump _⟩
  · refine ⟨_, execRet_of_not_pos ign (Nat.not_lt.mpr hempty.le), ?_, rfl, State.frame_reportAndAdvance rfl _ _⟩
    rw [State.reportAndAdvance_report, encode_ret]

/-- Settles O32, in the two cases of `execCall`. -/
theorem callPushesOrReports : Obligations.CallPushesOrReports := by
  refine fun nnn s => ⟨fun hroom => ?_, fun hfull => ?_⟩
  · refine ⟨_, execCall_of_lt nnn hroom, toNat_addrOf nnn, rfl, fun k => ?_, (State.frame_push rfl _ hroom).jump _⟩
    rw [State.jump_stack, State.getElem_push_stack]
    refine ⟨fun hk => ?_, fun hk => if_neg (Ne.symm hk)⟩
    rw [if_pos hk.symm]
    exact BitVec.toNat_add s.pc 2
  · refine ⟨_, execCall_of_not_lt nnn (Nat.not_lt.mpr hfull.ge), ?_, rfl, State.frame_reportAndAdvance rfl _ _⟩
    rw [State.reportAndAdvance_report, encode_call]

/-- Settles O33: the return pops what the call pushed, and the call's only store is at sp, above the live entries. -/
theorem returnUndoesCall : Obligations.ReturnUndoesCall := by
  intro nnn ign s hroom
  have hpos : 0 < ((s.push (nextPc s.pc) hroom).jump (addrOf nnn)).sp.val := Nat.succ_pos _
  refine ⟨_, _, execCall_of_lt nnn hroom, execRet_of_pos ign hpos, ?_, rfl, fun k hk => ?_⟩
  · exact State.stackTop_jump_push _ _ hroom hpos
  · exact (State.getElem_push_stack _ hroom k).trans (if_neg hk.ne')

/-! ### Clear display and jump -/

theorem State.pixel_clearDisplay (s : State) (cx : Fin 64) (cy : Fin 32) : s.clearDisplay.pixel cx cy = false :=
  Vector.getElem_replicate _

/-- Settles O29, from the cells and the frame of a cleared display. -/
theorem clsClearsEveryCell : Obligations.ClsClearsEveryCell :=
  fun ign s => ⟨_, exec_cls ign s, s.pixel_clearDisplay, rfl, (State.frame_clearDisplay rfl).advance⟩

/-- Settles O31: the address immediate is zero-extended, so pc is the same number. -/
theorem jumpSetsPc : Obligations.JumpSetsPc :=
  fun nnn s => ⟨_, exec_jp nnn s, toNat_addrOf nnn, (Frame.refl _ s).jump _⟩

/-! ### Conditional skips (10_state.md R25) -/

/-- What a skip instruction does, from its condition `c`: it skips where `c` is true and advances where it is not. -/
theorem exec_skips {i : Instr} {s : State} {c : Bool} {Skip Next : Prop} (h : exec i s = .next (s.advanceSkipping c))
    (hskip : Skip → c = true) (hnext : Next → c = false) :
    ∃ t, exec i s = .next t ∧ Frame {} s t ∧ (Skip → t.pc.toNat = (s.pc.toNat + 4) % 65536) ∧
      (Next → t.pc.toNat = (s.pc.toNat + 2) % 65536) := by
  refine ⟨_, h, (Frame.refl _ s).advanceSkipping c, fun hs => ?_, fun hn => ?_⟩
  · rw [hskip hs]; exact BitVec.toNat_add s.pc 4
  · rw [hnext hn]; exact BitVec.toNat_add s.pc 2

/-- Settles O34: SE skips on equality of the register and the immediate, SNE on inequality. -/
theorem compareWithImmediateSkips : Obligations.CompareWithImmediateSkips :=
  fun x kk s => ⟨exec_skips (exec_seImm x kk s) beq_iff_eq.mpr beq_eq_false_iff_ne.mpr,
    exec_skips (exec_sneImm x kk s) bne_iff_ne.mpr bne_eq_false_iff_eq.mpr⟩

/-- Settles O35: SE skips on equality of the two registers, SNE on inequality; no arm looks at the ignored bits. -/
theorem compareRegistersSkips : Obligations.CompareRegistersSkips :=
  fun x y ign s => ⟨exec_skips (exec_seReg x y ign s) beq_iff_eq.mpr beq_eq_false_iff_ne.mpr,
    exec_skips (exec_sneReg x y ign s) bne_iff_ne.mpr bne_eq_false_iff_eq.mpr⟩

end Sys2Proof.Machine
end

section
/-! SUPPORT. Load and add immediate, and the register-register operations (41_load_and_alu.md). -/

namespace Sys2Proof.Machine

/-! ### The words of the two immediate instructions (41_load_and_alu.md R140, R141) -/

theorem formatXKK_eq_ofNat (op : Nibble) (x : Reg) (kk : Byte) :
    formatXKK op (regField x) kk = BitVec.ofNat 16 (op.toNat * 4096 + x.val * 256 + kk.toNat) := by
  have hx : (regField x).toNat = x.val := rfl
  apply BitVec.eq_of_toNat_eq; rw [toNat_formatXKK, hx, BitVec.toNat_ofNat]; omega

theorem encode_ldImm (x : Reg) (kk : Byte) :
    encode (.ldImm x kk) = BitVec.ofNat 16 (0x6000 + x.val * 256 + kk.toNat) :=
  formatXKK_eq_ofNat 0x6 x kk

theorem encode_addImm (x : Reg) (kk : Byte) :
    encode (.addImm x kk) = BitVec.ofNat 16 (0x7000 + x.val * 256 + kk.toNat) :=
  formatXKK_eq_ofNat 0x7 x kk

/-! ### The flags as numbers (10_state.md R21) -/

section
variable {a b : Byte}

theorem carryOut_eq_true : carryOut a b = true ↔ 255 < a.toNat + b.toNat := decide_eq_true_iff

theorem carryOut_eq_false : carryOut a b = false ↔ a.toNat + b.toNat ≤ 255 := decide_eq_false_iff_not.trans Nat.not_lt

theorem exceeds_eq_true : exceeds a b = true ↔ b.toNat < a.toNat := decide_eq_true_iff

theorem exceeds_eq_false : exceeds a b = false ↔ a.toNat ≤ b.toNat := decide_eq_false_iff_not.trans Nat.not_lt

theorem toNat_bitZero : (bitZero a).toNat = a.toNat % 2 := by
  rw [bitZero, BitVec.getLsbD, Nat.toNat_testBit, Nat.pow_zero, Nat.div_one]

theorem toNat_bitSeven : (bitSeven a).toNat = a.toNat / 128 := by
  rw [bitSeven, BitVec.getLsbD, Nat.toNat_testBit]; omega

/-- The difference of two bytes wraps: it is the difference of the integers mod 256. -/
theorem toNat_sub_eq_int_emod : ((a - b).toNat : Int) = ((a.toNat : Int) - b.toNat) % 256 := by
  rw [BitVec.toNat_sub]; omega

end

/-! ### Instructions that write one register, and instructions that write VF after it -/

section
variable {i : Instr} {s : State} {x : Reg} {b : Byte} {f : Bool}

/-- All that an instruction does which writes one register and sets no flag. -/
theorem exec_writes_register (h : exec i s = .next (s.setReg x b).advance) :
    ∃ t, exec i s = .next t ∧ t.reg x = b ∧ t.pc = s.pc + 2 ∧ Frame { regs := [x] } s t :=
  ⟨_, h, (s.reg_setReg x x b).trans (if_pos rfl), rfl, (State.frame_setReg List.mem_cons_self b).advance⟩

/-- All that an instruction does which writes one register and then its flag: as the destination, VF keeps the flag
(10_state.md R29). -/
theorem exec_writes_register_and_flag (h : exec i s = .next (s.setRegAndFlag x b f).advance) :
    ∃ t, exec i s = .next t ∧ t.reg flagReg = flagByte f ∧ (x ≠ flagReg → t.reg x = b) ∧ t.pc = s.pc + 2 ∧
      Frame { regs := [x, flagReg] } s t := by
  refine ⟨_, h, ?_, fun hx => ?_, rfl,
    (State.frame_setRegAndFlag List.mem_cons_self (List.mem_cons_of_mem x List.mem_cons_self) b f).advance⟩
  · rw [State.reg_advance, State.reg_setRegAndFlag, if_pos rfl]
  · rw [State.reg_advance, State.reg_setRegAndFlag, if_neg hx, if_pos rfl]

/-- What a subtraction of bytes does, whichever operand is the minuend. -/
theorem exec_subtracts {m n : Byte} (h : exec i s = .next (s.setRegAndFlag x (m - n) (exceeds m n)).advance) :
    ∃ t, exec i s = .next t ∧ (n.toNat < m.toNat → t.reg flagReg = 1) ∧ (m.toNat ≤ n.toNat → t.reg flagReg = 0) ∧
      (x ≠ flagReg → ((t.reg x).toNat : Int) = ((m.toNat : Int) - n.toNat) % 256) ∧ t.pc = s.pc + 2 ∧
      Frame { regs := [x, flagReg] } s t := by
  obtain ⟨t, ht, hflag, hx, hrest⟩ := exec_writes_register_and_flag h
  refine ⟨t, ht, fun hgt => ?_, fun hle => ?_, fun hne => ?_, hrest⟩
  · exact hflag.trans (flagByte_eq_one.mpr (exceeds_eq_true.mpr hgt))
  · exact hflag.trans (flagByte_eq_zero.mpr (exceeds_eq_false.mpr hle))
  · rw [hx hne, toNat_sub_eq_int_emod]

end

/-- Settles O36: both words are the encodings of their instructions, and the sum of bytes wraps. -/
theorem loadAndAddImmediate : Obligations.LoadAndAddImmediate := by
  refine fun x kk => ⟨decode_eq_instr_iff.mpr (encode_ldImm x kk), decode_eq_instr_iff.mpr (encode_addImm x kk),
    fun s => ⟨exec_writes_register (exec_ldImm x kk s), ?_⟩⟩
  obtain ⟨t, ht, hx, hrest⟩ := exec_writes_register (exec_addImm x kk s)
  exact ⟨t, ht, hx ▸ BitVec.toNat_add (s.reg x) kk, hrest⟩

/-- Settles O38, from the carry of the untruncated sum. -/
theorem addSetsCarry : Obligations.AddSetsCarry := by
  intro x y s
  obtain ⟨t, ht, hflag, hx, hrest⟩ := exec_writes_register_and_flag (exec_addReg x y s)
  refine ⟨t, ht, fun hover => ?_, fun hfits => ?_, fun hne => ?_, hrest⟩
  · exact hflag.trans (flagByte_eq_one.mpr (carryOut_eq_true.mpr hover))
  · exact hflag.trans (flagByte_eq_zero.mpr (carryOut_eq_false.mpr hfits))
  · rw [hx hne, BitVec.toNat_add]

/-- Settles O39: SUB and SUBN are the same subtraction with the operands exchanged. -/
theorem subtractsSetTheStrictFlag : Obligations.SubtractsSetTheStrictFlag :=
  fun x y s => ⟨exec_subtracts (exec_subReg x y s), exec_subtracts (exec_subnReg x y s)⟩

/-- Settles O40: the flag is the bit that the shift drops, bit 0 or bit 7. -/
theorem shiftsMoveOneBitIntoTheFlag : Obligations.ShiftsMoveOneBitIntoTheFlag := by
  refine fun x ign s => ⟨?_, ?_⟩
  · obtain ⟨t, ht, hflag, hx, hrest⟩ := exec_writes_register_and_flag (exec_shr x ign s)
    refine ⟨t, ht, ?_, fun hne => ?_, hrest⟩
    · rw [hflag, toNat_flagByte, toNat_bitZero]
    · rw [hx hne, BitVec.toNat_ushiftRight, Nat.shiftRight_eq_div_pow, Nat.pow_one]
  · obtain ⟨t, ht, hflag, hx, hrest⟩ := exec_writes_register_and_flag (exec_shl x ign s)
    refine ⟨t, ht, ?_, fun hne => ?_, hrest⟩
    · rw [hflag, toNat_flagByte, toNat_bitSeven]
    · rw [hx hne, BitVec.toNat_shiftLeft, Nat.shiftLeft_eq, Nat.pow_one, Nat.mul_comm]

/-- Settles O37: the value written is the bitwise operation of the two registers. -/
theorem copyAndBitwiseOperations : Obligations.CopyAndBitwiseOperations := by
  refine fun x y s => ⟨exec_writes_register (exec_ldReg x y s), ?_, ?_, ?_⟩
  · obtain ⟨t, ht, hx, hrest⟩ := exec_writes_register (exec_orReg x y s)
    exact ⟨t, ht, fun k => hx ▸ BitVec.getLsbD_or, hrest⟩
  · obtain ⟨t, ht, hx, hrest⟩ := exec_writes_register (exec_andReg x y s)
    exact ⟨t, ht, fun k => hx ▸ BitVec.getLsbD_and, hrest⟩
  · obtain ⟨t, ht, hx, hrest⟩ := exec_writes_register (exec_xorReg x y s)
    exact ⟨t, ht, fun k => hx ▸ BitVec.getLsbD_xor, hrest⟩

/-! ### The same two immediate instructions as their rules put it -/

theorem State.setReg_self (s : State) (x : Reg) : s.setReg x (s.reg x) = s := by
  simp only [State.setReg, State.reg, Vector.set_getElem_self]

/-- Adding 0 writes back the value that was read. -/
theorem exec_addImm_zero (x : Reg) (s : State) : exec (.addImm x 0) s = .next s.advance := by
  have hsum : s.reg x + 0 = s.reg x := BitVec.add_zero _
  rw [exec_addImm, execAddImm, hsum, State.setReg_self]

/-- A frame of one register keeps the report, and VF unless it is this register. -/
theorem Frame.flagReg_and_report {s t : State} {x : Reg} (h : Frame { regs := [x] } s t) :
    (x ≠ flagReg → t.reg flagReg = s.reg flagReg) ∧ t.report = s.report := by
  obtain ⟨hregs, -, -, -, -, -, -, hreport, -⟩ := h
  exact ⟨fun hx => hregs flagReg (mt List.mem_singleton.mp hx.symm), hreport rfl⟩

/-- Settles O58, from the effects and the frames of O36. -/
theorem immediateInstructionsAsTheirRulesSay : Obligations.ImmediateInstructionsAsTheirRulesSay := by
  intro x kk
  obtain ⟨hldWord, haddWord, hexec⟩ := loadAndAddImmediate x kk
  refine ⟨hldWord, haddWord, fun s => ?_⟩
  obtain ⟨⟨t, ht, htx, htpc, htframe⟩, ⟨u, hu, hux, hupc, huframe⟩⟩ := hexec s
  exact ⟨⟨t, ht, htx, htpc, htframe.flagReg_and_report⟩, ⟨u, hu, hux, hupc, huframe.flagReg_and_report⟩,
    exec_addImm_zero x s⟩

end Sys2Proof.Machine
end

section
/-! SUPPORT. Load index, jump with offset, random byte and draw (42_index_jump_random_draw.md). -/

namespace Sys2Proof.Machine

/-! ### Draw (42_index_jump_random_draw.md R163, R164) -/

/-- The cells that the rows of DRW land on, as the laws of the canvas name them, are the cells its sprite covers. -/
theorem spriteRows_land_iff_covers (s : State) (x y : Reg) (n : Nibble) (cx : Fin 64) (cy : Fin 32) :
    (∃ r, ∃ h : r < (s.spriteRows n).length, cy.val = startRow (s.reg y) + r ∧
      ∃ c ∈ List.range 8, cx.val = startColumn (s.reg x) + c ∧ spriteBit (s.spriteRows n)[r] c = true) ↔
      spriteCovers s x y n cx cy := by
  simp only [State.spriteRows, State.length_memReadBytes, State.getElem_memReadBytes, List.mem_range]
  constructor
  · rintro ⟨r, hr, hy, c, hc, hx, hbit⟩
    exact ⟨r, c, hr, hc, hx, hy, hbit⟩
  · rintro ⟨r, c, hr, hc, hx, hy, hbit⟩
    exact ⟨r, hr, hy, c, hc, hx, hbit⟩

/-- A cell changes by an exclusive or exactly when the other operand is set. -/
theorem xor_decide_ne_iff (b : Bool) (p : Prop) [Decidable p] : (b ^^ decide p) ≠ b ↔ p := by
  cases b <;> simp

section
variable {x y : Reg} {n : Nibble} {s t : State}

theorem exec_drw_pixel_ne_iff (h : exec (.drw x y n) s = .next t) (cx : Fin 64) (cy : Fin 32) :
    t.pixel cx cy ≠ s.pixel cx cy ↔ spriteCovers s x y n cx cy := by
  cases h
  rw [← spriteRows_land_iff_covers]
  exact (Eq.congr_left (Canvas.pixel_plotRows ..)).not.trans (xor_decide_ne_iff (s.pixel cx cy) _)

/-- The old cells decide the flag: no row collides with a row drawn before it. -/
theorem exec_drw_flag (h : exec (.drw x y n) s = .next t) :
    ∃ hit : Bool, t.reg flagReg = flagByte hit ∧
      (hit = true ↔ ∃ cx cy, spriteCovers s x y n cx cy ∧ s.pixel cx cy = true) := by
  cases h
  refine ⟨_, (State.reg_drawSprite ..).trans (if_pos rfl), (Canvas.hit_plotRows ..).trans ?_⟩
  simp only [spriteRows_land_iff_covers, Bool.false_eq_true, false_or]
  rfl

theorem exec_drw_flag_eq_one_iff (h : exec (.drw x y n) s = .next t) :
    t.reg flagReg = 1 ↔ ∃ cx cy, spriteCovers s x y n cx cy ∧ s.pixel cx cy = true := by
  obtain ⟨hit, hflag, hhit⟩ := exec_drw_flag h
  rw [hflag]
  exact flagByte_eq_one.trans hhit

theorem exec_drw_flag_eq_zero_iff (h : exec (.drw x y n) s = .next t) :
    t.reg flagReg = 0 ↔ ∀ cx cy, spriteCovers s x y n cx cy → s.pixel cx cy = false := by
  obtain ⟨hit, hflag, hhit⟩ := exec_drw_flag h
  rw [hflag]
  refine flagByte_eq_zero.trans ?_
  simp only [← Bool.not_eq_true, hhit, not_exists, not_and]

/-- A draw keeps the sprite and, unless VF is a coordinate, its place. -/
theorem exec_drw_keeps_spriteCovers (h : exec (.drw x y n) s = .next t) (hx : x ≠ flagReg) (hy : y ≠ flagReg)
    (cx : Fin 64) (cy : Fin 32) : spriteCovers t x y n cx cy ↔ spriteCovers s x y n cx cy := by
  obtain ⟨hregs, hi, -, -, -, -, hmem, -⟩ := exec_frame h
  have hread : ∀ a, t.memRead a = s.memRead a := fun a => hmem a (List.forall_mem_nil _)
  rw [spriteCovers, hregs x (mt List.mem_singleton.mp hx), hregs y (mt List.mem_singleton.mp hy), hi rfl]
  simp only [hread]
  rfl

end

/-- Settles O44, from the laws of the canvas. -/
theorem drawFlipsExactlyTheCoveredCells : Obligations.DrawFlipsExactlyTheCoveredCells := by
  intro x y n s
  have h := exec_drw x y n s
  exact ⟨_, h, exec_drw_pixel_ne_iff h, (exec_drw_flag_eq_one_iff h).mpr, (exec_drw_flag_eq_zero_iff h).mpr, rfl,
    exec_frame h⟩

/-- Settles O45: the two draws cover the same cells, so each cell is flipped twice or never, and a covered cell that was
clear is set when the second draw meets it. -/
theorem drawTwiceRestoresTheScreen : Obligations.DrawTwiceRestoresTheScreen := by
  intro x y n s hx hy
  obtain ⟨t, ht⟩ := exec_total (.drw x y n) s
  obtain ⟨u, hu⟩ := exec_total (.drw x y n) t
  have hcovers := exec_drw_keeps_spriteCovers ht hx hy
  have hfirst := exec_drw_pixel_ne_iff ht
  have hsecond : ∀ cx cy, u.pixel cx cy ≠ t.pixel cx cy ↔ spriteCovers s x y n cx cy :=
    fun cx cy => (exec_drw_pixel_ne_iff hu cx cy).trans (hcovers cx cy)
  refine ⟨t, u, ht, hu, pixel_ext fun cx cy => ?_, fun ⟨cx, cy, hcov⟩ hclear => ?_⟩
  · change u.pixel cx cy = s.pixel cx cy
    by_cases hcov : spriteCovers s x y n cx cy
    · rw [Bool.eq_not_of_ne ((hsecond cx cy).mpr hcov), Bool.eq_not_of_ne ((hfirst cx cy).mpr hcov), Bool.not_not]
    · rw [not_ne_iff.mp (mt (hsecond cx cy).mp hcov), not_ne_iff.mp (mt (hfirst cx cy).mp hcov)]
  · have hset : t.pixel cx cy = true := by
      rw [Bool.eq_not_of_ne ((hfirst cx cy).mpr hcov), hclear cx cy hcov, Bool.not_false]
    exact ⟨(exec_drw_flag_eq_zero_iff ht).mpr hclear,
      (exec_drw_flag_eq_one_iff hu).mpr ⟨cx, cy, (hcovers cx cy).mpr hcov, hset⟩⟩

/-! ### Load index, jump with offset and random byte (R160, R161, R162) -/

/-- Settles O41: nnn is stored as it stands. -/
theorem loadIndexSetsI : Obligations.LoadIndexSetsI :=
  fun nnn s => ⟨_, exec_ldI nnn s, toNat_addrOf nnn, rfl, (State.frame_setI rfl _).advance⟩

/-- The target of JP V0 stays below 4096 + 256, so the sum of the words does not wrap. -/
theorem toNat_addrOf_add_widen (nnn : Addr12) (b : Byte) : (addrOf nnn + widen b).toNat = nnn.toNat + b.toNat := by
  have hnnn := nnn.isLt
  have hb := b.isLt
  rw [addrOf_add_widen, BitVec.toNat_ofNat]; omega

/-- Settles O42. -/
theorem jumpWithOffsetAddsV0 : Obligations.JumpWithOffsetAddsV0 :=
  fun nnn s => ⟨_, exec_jpV0 nnn s, toNat_addrOf_add_widen nnn (s.reg 0), (Frame.refl _ s).jump _⟩

theorem State.rnd_of_queued {s : State} {b : Byte} {rest : List Byte} (h : s.rndIn = b :: rest) : s.rnd = b := by
  simp only [State.rnd, h]

theorem State.rnd_of_none_queued {s : State} (h : s.rndIn = []) : s.rnd = Config.freeRandom s.rndCount := by
  simp only [State.rnd, h]

/-- Settles O43: one register is written, with the cycle's random byte AND kk. -/
theorem randomByteIsMasked : Obligations.RandomByteIsMasked := by
  intro x kk s
  obtain ⟨t, ht, hx, hrest⟩ := exec_writes_register (exec_rnd x kk s)
  refine ⟨t, ht, fun b rest hqueued => ?_, fun hnone => ?_, fun k hk => ?_, hrest⟩
  · rw [hx, State.rnd_of_queued hqueued]
  · rw [hx, State.rnd_of_none_queued hnone]
  · rw [hx, BitVec.getLsbD_and, hk, Bool.and_false]

end Sys2Proof.Machine
end

section
/-! SUPPORT. The key instructions and the timer moves (43_keypad_and_timers.md). -/

namespace Sys2Proof.Machine

/-! ### Wait for a key (43_keypad_and_timers.md R175) -/

theorem toNat_ofNat_key (k : Fin 16) : (BitVec.ofNat 8 k.val).toNat = k.val :=
  (BitVec.toNat_ofNat k.val 8).trans (Nat.mod_eq_of_lt (k.isLt.trans (by norm_num)))

/-- The scan finds the least pressed key: it finds some key, and neither of the two can be below the other. -/
theorem State.firstKey_eq_some_of_least {s : State} {k : Fin 16} (hk : s.keys[k.val] = true)
    (hleast : ∀ j : Fin 16, j.val < k.val → s.keys[j.val] = false) : s.firstKey = some k := by
  cases hfound : s.firstKey with
  | none => exact absurd hk (Bool.eq_false_iff.mp (State.firstKey_eq_none.mp hfound k))
  | some j =>
    obtain ⟨hj, hjleast⟩ := State.firstKey_eq_some hfound
    have hkj : k.val ≤ j.val := Nat.le_of_not_lt fun hlt => Bool.eq_false_iff.mp (hleast j hlt) hj
    have hjk : j.val ≤ k.val := Nat.le_of_not_lt fun hlt => Bool.eq_false_iff.mp (hjleast k hlt) hk
    rw [Fin.ext (hjk.antisymm hkj)]

/-- Settles O48, in the two cases of the key scan. -/
theorem waitForKeyTakesTheLeastPressedKey : Obligations.WaitForKeyTakesTheLeastPressedKey := by
  refine fun x s => ⟨fun hnone => ?_, fun k hk hleast => ?_⟩
  · exact execLdVxK_of_none x (State.firstKey_eq_none.mpr hnone)
  · obtain ⟨t, ht, hx, hrest⟩ :=
      exec_writes_register (i := .ldVxK x) (execLdVxK_of_some x (State.firstKey_eq_some_of_least hk hleast))
    exact ⟨t, ht, hx ▸ toNat_ofNat_key k, hrest⟩

/-! ### Skips on a key (43_keypad_and_timers.md R170, R171) -/

/-- What a skip instruction does, with pc as a word. -/
theorem exec_skips_pc {i : Instr} {s : State} {c : Bool} {Skip Next : Prop} (h : exec i s = .next (s.advanceSkipping c))
    (hskip : Skip → c = true) (hnext : Next → c = false) :
    ∃ t, exec i s = .next t ∧ Frame {} s t ∧ (Skip → t.pc = s.pc + 4) ∧ (Next → t.pc = s.pc + 2) := by
  obtain ⟨t, ht, hframe, hpc4, hpc2⟩ := exec_skips h hskip hnext
  exact ⟨t, ht, hframe, fun hs => BitVec.eq_of_toNat_eq ((hpc4 hs).trans (BitVec.toNat_add s.pc 4).symm),
    fun hn => BitVec.eq_of_toNat_eq ((hpc2 hn).trans (BitVec.toNat_add s.pc 2).symm)⟩

/-- Settles O46: both skips look at the level of the masked key, SKNP at its negation. -/
theorem keySkipsTestTheMaskedKey : Obligations.KeySkipsTestTheMaskedKey := by
  intro x s k hk
  have hkey : s.keys[k.val] = s.keyDown (s.reg x) := by simp only [State.keyDown_eq, hk]
  rw [hkey]
  exact ⟨exec_skips_pc (exec_skp x s) id id,
    exec_skips_pc (exec_sknp x s) (congrArg not) (congrArg not)⟩

/-! ### Timer moves (43_keypad_and_timers.md R172 to R174) -/

/-- Settles O47: one move writes a register, the other two write one timer each. -/
theorem timerMovesCopyOneByte : Obligations.TimerMovesCopyOneByte :=
  fun x s => ⟨exec_writes_register (exec_ldVxDT x s),
    ⟨_, exec_ldDTVx x s, rfl, rfl, (State.frame_setDT rfl _).advance⟩,
    ⟨_, exec_ldSTVx x s, rfl, rfl, (State.frame_setST rfl _).advance⟩⟩

end Sys2Proof.Machine
end

section
/-! SUPPORT. Add to index, font address, BCD store, register dump and register load (44_index_memory.md). -/

namespace Sys2Proof.Machine

/-! ### I (44_index_memory.md R180, R181) -/

/-- Settles O49: the sum of the words wraps at 16 bits. -/
theorem addToIndexWrapsAtSixteenBits : Obligations.AddToIndexWrapsAtSixteenBits := by
  intro x s
  have hsum : (s.i + widen (s.reg x)).toNat = (s.i.toNat + (s.reg x).toNat) % 65536 := by
    rw [BitVec.toNat_add, toNat_widen]
  exact ⟨_, exec_addI x s, hsum, rfl, exec_frame (exec_addI x s)⟩

/-- FONT_BASE leaves room for the whole font below 0x200 (00_scope.md R8), so every digit's address is below it. -/
theorem toNat_fontAddress_lt (p : Params) (b : Byte) : (fontAddress p b).toNat < 0x200 := by
  have hbase := p.fontBase.isLt
  rw [toNat_fontAddress]; omega

/-- Settles O50: the masked digit is at most 15, which the constraint on FONT_BASE allows for. -/
theorem fontAddressOfTheLowDigit : Obligations.FontAddressOfTheLowDigit :=
  fun x s => ⟨_, exec_ldF x s, toNat_fontAddress s.params (s.reg x), toNat_fontAddress_lt s.params (s.reg x), rfl,
    exec_frame (exec_ldF x s)⟩

/-! ### The runs of memory from I on (44_index_memory.md R182 to R184) -/

/-- Each decimal digit of a byte fits the byte it is stored as. -/
theorem bcdDigits_map_toNat (a : Byte) :
    (bcdDigits a).map BitVec.toNat = [a.toNat / 100, a.toNat / 10 % 10, a.toNat % 10] := by
  have ha := a.isLt
  simp only [bcdDigits, List.map_cons, List.map_nil, BitVec.toNat_ofNat, List.cons.injEq, and_true]
  omega

/-- BCD store puts digit k of Vx at `I + k`. -/
theorem State.toNat_memRead_memWriteBytes_bcdDigits (s : State) (a : Byte) {k : Nat} (hk : k < 3) :
    ((s.memWriteBytes s.indexAddress (bcdDigits a)).memRead (s.indexAddress + k)).toNat =
      [a.toNat / 100, a.toNat / 10 % 10, a.toNat % 10][k] := by
  rw [s.memRead_memWriteBytes_at s.indexAddress (bytes := bcdDigits a) hk (by simp)]
  simp only [← bcdDigits_map_toNat]
  exact (List.getElem_map BitVec.toNat).symm

/-- Settles O51: the three stores put the digits in order, none over another. -/
theorem bcdStoresThreeDigits : Obligations.BcdStoresThreeDigits := by
  intro x s
  have hdigit := fun k (hk : k < 3) => s.toNat_memRead_memWriteBytes_bcdDigits (s.reg x) hk
  exact ⟨_, exec_ldB x s, hdigit 0 (by decide), hdigit 1 (by decide), hdigit 2 (by decide), rfl,
    exec_frame (exec_ldB x s)⟩

/-- Settles O52: the run of at most 16 stores puts each register at its own address. -/
theorem dumpStoresRegistersUpToX : Obligations.DumpStoresRegistersUpToX :=
  fun x s => ⟨_, exec_ldMemVx x s, fun _ hk => s.memRead_memWriteBytes_regsUpTo hk, rfl,
    exec_frame (exec_ldMemVx x s)⟩

/-- Register load takes Vk from `I + k` (44_index_memory.md R184). -/
theorem State.reg_loadRegs_bytesUpTo (s : State) {x k : Reg} (hk : k.val ≤ x.val) :
    (s.loadRegs (s.bytesUpTo x)).reg k = s.memRead (s.indexAddress + k.val) := by
  have hlt : k.val < (s.bytesUpTo x).length := by
    rw [State.bytesUpTo, State.length_memReadBytes]; omega
  rw [State.reg_loadRegs, List.getElem?_eq_getElem hlt, Option.getD_some]
  exact s.getElem_memReadBytes s.indexAddress (x.val + 1) hlt

/-- Settles O53: the registers up to x take the bytes read, and the frame keeps the others. -/
theorem loadFillsRegistersUpToX : Obligations.LoadFillsRegistersUpToX :=
  fun x s => ⟨_, exec_ldVxMem x s, fun _ hk => s.reg_loadRegs_bytesUpTo hk, rfl, exec_frame (exec_ldVxMem x s)⟩

end Sys2Proof.Machine
end

section
/-! SUPPORT. The error reports and the tone event (60_exceptions.md). -/

namespace Sys2Proof.Machine

/-! ### The unknown word (60_exceptions.md R191) -/

/-- The start of a cycle sets only the report and the tone outputs, so a frame that names them may start before it. -/
theorem Frame.of_beginCycle {c : Changes} {s t : State} (h : Frame c s.beginCycle t) (hreport : c.report = true)
    (htone : c.tone = true) : Frame c s t := by
  simpa [Frame, hreport, htone] using h

theorem step_of_decode_unknown {s : State} {u : Word} (h : decode s.fetchWord = .unknown u) :
    step s = .next (s.beginCycle.reportAndAdvance .decodeError s.fetchWord).finishCycle := by
  obtain rfl := eq_of_decode_unknown h
  exact step_eq_next.mpr ⟨_, by rw [h]; rfl, rfl⟩

/-- Settles O9: the unknown word is the word fetched, and the report mechanism has the frame. -/
theorem unknownWordReportsAndAdvances : Obligations.UnknownWordReportsAndAdvances := by
  intro s ⟨u, hu⟩
  exact ⟨_, step_of_decode_unknown hu, rfl, rfl, rfl, rfl,
    (State.frame_reportAndAdvance rfl _ _).of_beginCycle rfl rfl⟩

/-! ### The tone event (60_exceptions.md R204) -/

/-- Settles O12: the timer step counts 1 down to 0, and the tone output is in the frame of every instruction. -/
theorem toneMarksTheStepFromOneToZero : Obligations.ToneMarksTheStepFromOneToZero := by
  refine ⟨fun s => ?_, fun i s t h => ?_⟩
  · have htone : s.tickTimers.tone = true ↔ s.st.toNat = 1 := toneDue_eq_true s.st
    have hst : s.tickTimers.st.toNat = s.st.toNat - 1 := toNat_tickDown s.st
    refine ⟨htone.trans ⟨fun h => ⟨h, by rw [hst, h]⟩, And.left⟩, fun h => ?_⟩
    exact Bool.eq_false_iff.mpr (mt htone.mp h)
  · obtain ⟨-, -, -, -, -, -, -, -, htone, -⟩ := exec_frame h
    exact htone (changesOf_tone s i)

/-! ### The report of a cycle (60_exceptions.md R191, R192, R193, R197) -/

/-- An instruction run from a state with no report yet leaves the report due: the stack errors in the two cases of
`execCall` and of `execRet`, none by the frame of every other instruction. -/
theorem exec_report {i : Instr} {s t : State} (hnone : s.report = .none) (hword : encode i = s.fetchWord)
    (h : exec i s = .next t) : t.report = reportDue s (.instr i) := by
  have hkeep : (changesOf s i).report = false → t.report = .none := by
    obtain ⟨-, -, -, -, -, -, -, hreport, -⟩ := exec_frame h
    exact fun hi => (hreport hi).trans hnone
  cases i with
  | call nnn =>
    obtain ⟨hsp, rfl⟩ | ⟨hsp, rfl⟩ := execCall_cases h
    · rw [reportDue, if_neg hsp.ne]; exact hnone
    · have hfull : s.sp.val = 16 := by omega
      rw [reportDue, if_pos hfull, ← hword]; rfl
  | ret ign =>
    obtain ⟨hsp, rfl⟩ | ⟨hsp, rfl⟩ := execRet_cases h
    · rw [reportDue, if_neg hsp.ne']; exact hnone
    · have hempty : s.sp.val = 0 := by omega
      rw [reportDue, if_pos hempty, ← hword]; rfl
  | _ => exact hkeep rfl

theorem execDecoded_report {s t : State} (h : execDecoded (decode s.fetchWord) s.beginCycle = .next t) :
    t.report = reportDue s (decode s.fetchWord) := by
  cases hd : decode s.fetchWord with
  | instr i =>
    rw [hd] at h
    exact exec_report (s := s.beginCycle) rfl (encode_eq_of_decode hd) h
  | unknown u => rw [hd] at h; cases h; rw [eq_of_decode_unknown hd]; rfl

theorem applyMove_report_of_ne_reset (s : State) {m : DriverMove} (h : m ≠ .reset) :
    (applyMove s m).report = s.report := by
  obtain ⟨hm, -⟩ | ⟨keys, mem, dt, st, tone, toneLog, hm⟩ := applyMove_cases s m
  · exact absurd hm h
  · rw [hm]

theorem applyMoves_report_of_reset_not_mem {moves : List DriverMove} (h : DriverMove.reset ∉ moves) (s : State) :
    (applyMoves s moves).report = s.report := by
  induction moves generalizing s with
  | nil => rfl
  | cons m rest ih =>
    obtain ⟨hm, hrest⟩ := not_or.mp (mt List.mem_cons.mpr h)
    exact (ih hrest _).trans (applyMove_report_of_ne_reset s (Ne.symm hm))

/-- Settles O26: execution leaves the report due, and neither the cycle's end nor a gap without Reset touches it. -/
theorem reportsAreExactlyTheThreeErrors : Obligations.ReportsAreExactlyTheThreeErrors := by
  intro s u hgap h
  obtain ⟨t, ht, rfl⟩ := step_cases h
  calc (applyMoves { t.endCycle with driver := s.driver.tail } (s.driver.headD [])).report
    _ = t.endCycle.report := applyMoves_report_of_reset_not_mem hgap _
    _ = t.report := t.endCycle_report
    _ = reportDue s (decode s.fetchWord) := execDecoded_report ht

end Sys2Proof.Machine
end

section
/-! SUPPORT. The cycle, its timer step, Reset and the load of a ROM image (70_reset_and_hazards.md). -/

namespace Sys2Proof.Machine

/-! ### One cycle (70_reset_and_hazards.md R226) -/

/-- Settles O8: the word fetched is the two bytes at pc, and the cycle is finished by its end and the driver's gap. -/
theorem stepRunsTheFetchedInstruction : Obligations.StepRunsTheFetchedInstruction := by
  intro s t i hdecode hexec
  have hrun : execDecoded (decode s.fetchWord) s.beginCycle = .next t :=
    (congrArg (execDecoded · s.beginCycle) hdecode).trans hexec
  rw [step_eq_next.mpr ⟨t, hrun, rfl⟩, State.finishCycle_eq]
  cases hmode : t.params.timerMode with
  | perCycle => rw [State.endCycle_perCycle hmode]; rfl
  | external => rw [State.endCycle_external hmode]; rfl

/-- All that a step can do when the driver makes no move in its gap: execute, and end the cycle. -/
theorem step_cases_of_empty_gap {s u : State} (hgap : s.driver.headD [] = []) (h : step s = .next u) :
    ∃ t, execDecoded (decode s.fetchWord) s.beginCycle = .next t ∧ t.params = s.params ∧ t.tone = false ∧
      t.toneLog = [] ∧ u = { t.endCycle with driver := s.driver.tail } := by
  obtain ⟨t, ht, rfl⟩ := step_cases h
  obtain ⟨c, hc, -, -, -, -, -, -, -, -, htone, -, hparams, -⟩ := execDecoded_frame ht
  exact ⟨t, ht, hparams, (htone hc).1, (htone hc).2, by rw [hgap]; rfl⟩

/-! ### The timer step in both modes (70_reset_and_hazards.md R226, R227, R228) -/

theorem applyMove_timerTick_perCycle {s : State} (h : s.params.timerMode = .perCycle) :
    applyMove s .timerTick = s := by
  simp only [applyMove, State.driverTick, h]

theorem applyMove_timerTick_external {s : State} (h : s.params.timerMode = .external) :
    applyMove s .timerTick = s.tickTimers := by
  simp only [applyMove, State.driverTick, h]

theorem toneDue_eq_true_iff_eq_one {b : Byte} : toneDue b = true ↔ b = 1 := decide_eq_true_iff

theorem State.frame_tickTimers {c : Changes} (s : State) (hdelay : c.delay = true) (hsound : c.sound = true)
    (htone : c.tone = true) : Frame c s s.tickTimers := by
  simp [Frame, hdelay, hsound, htone]

/-- Settles O10: both timers count down, and the tone output is the one due for the sound timer before the step. -/
theorem timerStepCountsBothTimersDown : Obligations.TimerStepCountsBothTimersDown :=
  ⟨fun s => ⟨toNat_tickDown s.dt, toNat_tickDown s.st, toneDue_eq_true_iff_eq_one, rfl, s.frame_tickTimers rfl rfl rfl⟩,
    fun _ => applyMove_timerTick_external⟩

/-- Settles O11: the cycle ends with one timer step, and its output goes to a log that execution left empty. -/
theorem cycleEndsWithTheTimerStep : Obligations.CycleEndsWithTheTimerStep := by
  intro s u hmode hgap h
  obtain ⟨t, ht, hparams, -, hlog, rfl⟩ := step_cases_of_empty_gap hgap h
  rw [State.endCycle_perCycle (by rw [hparams, hmode])]
  have hlogged : t.tickTimers.toneLog = [t.tickTimers.tone] := by
    rw [State.tickTimers_toneLog, hlog, List.nil_append, State.tickTimers_tone]
  exact ⟨t, ht, toNat_tickDown t.dt, toNat_tickDown t.st, toneDue_eq_true_iff_eq_one, hlogged,
    rfl, rfl, rfl, rfl, rfl, rfl, rfl, rfl, rfl⟩

/-- Settles O13: the end of the cycle uses up the random byte only, and execution emits no tone. -/
theorem externalModeLeavesTheTimersToTheDriver : Obligations.ExternalModeLeavesTheTimersToTheDriver := by
  refine ⟨fun s u hmode hgap h => ?_, fun _ => applyMove_timerTick_perCycle⟩
  obtain ⟨t, ht, hparams, htone, hlog, rfl⟩ := step_cases_of_empty_gap hgap h
  rw [State.endCycle_external (by rw [hparams, hmode])]
  exact ⟨htone, hlog, t, ht, rfl, rfl, rfl, rfl⟩

/-! ### Reset (70_reset_and_hazards.md R220) -/

theorem Memory.unlisted_font (p : Params) (k : Fin 80) :
    Memory.unlisted p (p.fontBase.val + k.val) = p.fontTable[k.val] := by
  simp [Memory.unlisted]

theorem Memory.unlisted_outside_font {p : Params} {a : Nat} (h : a < p.fontBase.val ∨ p.fontBase.val + 80 ≤ a) :
    Memory.unlisted p a = 0 :=
  dif_neg (by omega)

theorem State.memRead_resetCore (s : State) {a : Nat} (h : a < 4096) :
    s.resetCore.memRead a = Memory.unlisted s.params a :=
  State.memRead_resetWith s.params h

/-- Settles O17: every field is that of the reset state, and memory reads as its reset contents. -/
theorem resetLeavesTheSpecValues : Obligations.ResetLeavesTheSpecValues := by
  intro s
  have hfont (k : Fin 80) : s.resetCore.memRead (s.params.fontBase.val + k.val) = s.params.fontTable[k.val] := by
    rw [s.memRead_resetCore (by omega), Memory.unlisted_font]
  have hzero (a : Nat) (ha : a < 4096) (hout : a < s.params.fontBase.val ∨ s.params.fontBase.val + 80 ≤ a) :
      s.resetCore.memRead a = 0 := by
    rw [s.memRead_resetCore ha, Memory.unlisted_outside_font hout]
  exact ⟨fun r => Vector.getElem_replicate r.isLt, rfl, rfl, rfl, fun k => Vector.getElem_replicate k.isLt, rfl, rfl,
    hfont, hzero, fun cx cy => Vector.getElem_replicate (by omega), fun k => Vector.getElem_replicate k.isLt⟩

/-! ### The load of a ROM image (70_reset_and_hazards.md R224) -/

theorem State.loadRom_of_le {s : State} {image : List Byte} (h : image.length ≤ Config.maxRom) :
    s.loadRom image = s.memWriteBytes Config.entryPoint image :=
  if_pos h

theorem State.loadRom_of_lt {s : State} {image : List Byte} (h : Config.maxRom < image.length) : s.loadRom image = s :=
  if_neg (Nat.not_le.mpr h)

/-- Settles O18: an image that fits is stored as one run of bytes at the entry point, any other is rejected. -/
theorem loadedRomStandsAtTheEntryPoint : Obligations.LoadedRomStandsAtTheEntryPoint := by
  refine fun s image => ⟨fun hlen => ?_, State.loadRom_of_lt⟩
  rw [State.loadRom_of_le hlen]
  exact ⟨fun k hk => s.memRead_memWriteBytes_at _ hk (by omega), rfl, State.frame_memWriteBytes rfl⟩

end Sys2Proof.Machine
end
